-- ==== Sys2Proof/Word.lean ====
section
/-! DEFINITION. The words of the machine: a host register is 32 bits (10_state.md R20), a buffer cell is a byte, and a
memory is a list of (index, cell) pairs (20_memory.md R70, R73). -/

namespace Sys2Proof

/-- A host-visible register, `REG_W = 32` bits (00_scope.md R7). -/
abbrev Word := BitVec 32

/-- A cell of a byte buffer (20_memory.md R70). -/
abbrev Byte := BitVec 8

/-- A memory of `w`-bit cells: its stored cells as (index, value) pairs, indices strictly rising (see
`Machine.canonical`). A cell that is not listed has no stored value. -/
abbrev Mem (w : Nat) := List (Nat × BitVec w)

/-- `ceil(a / b)` of 00_scope.md R8. -/
def ceilDiv (a b : Nat) : Nat := (a + b - 1) / b

end Sys2Proof
end

