-- ==== Sys2Proof/Config.lean ====
section
/-! DEFINITION. What an implementation fixes (00_scope.md R7, 92_eei_decisions.md section 7) and the values the spec leaves
free. The parameters are a record that State carries; the free values are constants with no body. -/

namespace Sys2Proof

/-- The four units (00_scope.md R1). -/
inductive UnitId where
  | pfe | lzd | g4e | rld
  deriving DecidableEq, Repr

/-- Who can move: the host or one of the units (00_scope.md R6). -/
inductive Agent where
  | host
  | unit (u : UnitId)
  deriving DecidableEq, Repr

/-- The address spaces of 20_memory.md R74 whose content the spec leaves unspecified until it is written. -/
inductive Space where
  | input (u : UnitId) | output (u : UnitId)
  | prior | curr | prefixTab | suffixTab | cur | ref
  deriving DecidableEq, Repr

/-- A code word: the `len` low bits of `code`, the most significant sent first (30_encoding.md R112). -/
structure CodeWord where
  len : Nat
  code : Nat
  deriving DecidableEq, Repr

/-- `MODE_TAB` (42_g4_encoder.md R240): pass, horizontal, the seven vertical words `V[0]` to `V[6]`, end of line. -/
structure ModeTab where
  pass : CodeWord
  horiz : CodeWord
  vr3 : CodeWord
  vr2 : CodeWord
  vr1 : CodeWord
  v0 : CodeWord
  vl1 : CodeWord
  vl2 : CodeWord
  vl3 : CodeWord
  eol : CodeWord
  deriving DecidableEq, Repr

/-- The parameters of an instance (00_scope.md R7): the capacities, whether the TIFF variant exists, and the code
tables, which 92_eei_decisions.md D46 has a model take as parameters. -/
structure Config where
  maxIn : Nat
  maxOut : Nat
  maxW : Nat
  maxH : Nat
  hasTiffLzw : Bool
  modeTab : ModeTab
  whiteTab : List CodeWord
  blackTab : List CodeWord
  deriving DecidableEq, Repr

/-- The nine mode words among which R243 asks for prefix-freeness, and which R113 uses. -/
def ModeTab.modes (t : ModeTab) : List CodeWord :=
  [t.pass, t.horiz, t.vr3, t.vr2, t.vr1, t.v0, t.vl1, t.vl2, t.vl3]

/-- A code word fits its length, and the length is one `putbits` takes (42_g4_encoder.md R235). -/
def CodeWord.ok (c : CodeWord) : Bool :=
  decide (1 ≤ c.len) && decide (c.len ≤ 13) && decide (c.code < 2 ^ c.len)

/-- Neither word begins the other (30_encoding.md R112). -/
def CodeWord.apart (c d : CodeWord) : Bool :=
  if c.len ≤ d.len then d.code >>> (d.len - c.len) != c.code else c.code >>> (c.len - d.len) != d.code

/-- A list of words in which no word begins another (42_g4_encoder.md R243). -/
def prefixFree : List CodeWord → Bool
  | [] => true
  | c :: cs => cs.all c.apart && prefixFree cs

/-- A run-length table has the shape of R241 and R242: 104 words, each of a legal length, none a prefix of another. -/
def runTabOk (t : List CodeWord) : Bool := t.length == 104 && t.all CodeWord.ok && prefixFree t

/-- The ranges 00_scope.md R7 and 93_implementation_defined.md I24 set on the parameters. -/
def Config.wf (c : Config) : Bool :=
  decide (1 ≤ c.maxIn) && decide (c.maxIn ≤ 2 ^ 24) && decide (1 ≤ c.maxOut) && decide (c.maxOut ≤ 2 ^ 31) &&
    decide (1 ≤ c.maxW) && decide (c.maxW ≤ 2 ^ 31 - 1) && decide (1 ≤ c.maxH) && decide (c.maxH ≤ 2 ^ 31 - 1) &&
    c.modeTab.modes.all CodeWord.ok && prefixFree c.modeTab.modes && decide (c.modeTab.eol = ⟨12, 1⟩) &&
    runTabOk c.whiteTab && runTabOk c.blackTab

/-- FREE VALUE (log 1): what the cell `a` of a space shows while nothing is stored there. `gen` tells apart the contents
the spec does not connect: before and after a hardware reset (70_reset_and_hazards.md R352), and OUT before and after a
fault (60_exceptions.md R322). -/
opaque freeCell (w : Nat) (sp : Space) (gen a : Nat) : BitVec w

/-- FREE VALUE (log 4): the n-th number a host read of `IN_POS` or `OUT_LEN` of a BUSY unit is taken from
(44_host_commands.md R290). -/
opaque freeProgress : Nat → Nat

/-- FREE VALUE (log 4): the n-th byte of a host buffer read that the spec leaves unspecified (44_host_commands.md R295). -/
opaque freeByte : Nat → Byte

/-- FREE VALUE (log 6): the turns granted between two turns of the round in `Machine.State.takeTurn`; any finite list. -/
opaque freeTurns : Nat → List Agent

end Sys2Proof
end

