-- ==== Sys2Proof/Syntax.lean ====
section
/-! DEFINITION. The elements of the five encodings (30_encoding.md), one constructor per row of spec/opcode_table.json,
and the contexts in which they are encoded. Operand shapes are those of R101 to R116. -/

namespace Sys2Proof

/-- The colour of a run (42_g4_encoder.md R223: bit 0 is white, bit 1 is black). -/
inductive Colour where
  | white | black
  deriving DecidableEq, Repr

/-- The three code tables of G4E (10_state.md R43). -/
inductive G4Table where
  | mode | white | black
  deriving DecidableEq, Repr

/-- A run word: the table's colour and the index in it, `t` for the terminating run `t`, `63 + m` for the makeup run
`64 * m` (30_encoding.md R114). -/
structure RunWord where
  colour : Colour
  index : Fin 104
  deriving DecidableEq, Repr

/-- The five filter types (30_encoding.md R102). -/
inductive Filter where
  | none | sub | up | avg | paeth
  deriving DecidableEq, Repr

/-- What LZD's registers say about the next code (30_encoding.md R111, 41_lzw.md R181): `DEPTH`, `VARIANT`, `CODE_SIZE`,
`AVAIL`, `OLD_VALID`. -/
structure LzwCx where
  n : Nat
  tiff : Bool
  codeSize : Nat
  avail : Nat
  oldValid : Bool
  deriving DecidableEq, Repr

/-- Where an element is met, which is what its encoding depends on besides its own bits (30_encoding.md R100): a PFE
record in a pass of `prb` bytes a line, an RLD command in a mode, an LZD code, a G4E code word of a table, a write to
the `CTRL` register of a unit. -/
inductive Cx where
  | scan (prb : Nat)
  | rle (mode4 : Bool)
  | lzw (x : LzwCx)
  | g4 (t : G4Table)
  | cmd (u : UnitId)
  deriving DecidableEq, Repr

/-- The encoding of an element: whole bytes (PFE, RLD), bits in stream order (LZD, G4E), or one register write. -/
inductive Code where
  | bytes (bs : List Byte)
  | bits (bs : List Bool)
  | word (v : Word)
  deriving DecidableEq, Repr

/-- The elements, one constructor per row of spec/opcode_table.json, in its order. `ft*`: the raw bytes of the record.
`rle8Run n v`, `rle4Run n h l`: count, value(s). `rleDelta dx dy`. `rle8Abs n d`, `rle4Abs n d`: count, data bytes without
the pad. `lzwLit`, `lzwRef`, `lzwIllegal`: the code. `g4Wt<t>`, `g4Bt<t>`, `g4Wm<r>`, `g4Bm<r>`: run words. `cmd* u`: the unit
whose `CTRL` is written. -/
inductive Instr where
  | ftNone (raw : List Byte)
  | ftSub (raw : List Byte)
  | ftUp (raw : List Byte)
  | ftAvg (raw : List Byte)
  | ftPaeth (raw : List Byte)
  | rle8Run (n v : Byte)
  | rle4Run (n : Byte) (h l : BitVec 4)
  | rleEol | rleEob
  | rleDelta (dx dy : Byte)
  | rle8Abs (n : Byte) (d : List Byte)
  | rle4Abs (n : Byte) (d : List Byte)
  | lzwClear | lzwEoi
  | lzwLit (c : BitVec 12)
  | lzwRef (c : BitVec 12)
  | lzwKwk
  | lzwIllegal (c : BitVec 12)
  | g4P | g4H | g4Vr3 | g4Vr2 | g4Vr1 | g4V0 | g4Vl1 | g4Vl2 | g4Vl3 | g4Eol | g4Wt0 | g4Wt1 | g4Wt2 | g4Wt3
  | g4Wt4 | g4Wt5 | g4Wt6 | g4Wt7 | g4Wt8 | g4Wt9 | g4Wt10 | g4Wt11 | g4Wt12 | g4Wt13 | g4Wt14 | g4Wt15
  | g4Wt16 | g4Wt17 | g4Wt18 | g4Wt19 | g4Wt20 | g4Wt21 | g4Wt22 | g4Wt23 | g4Wt24 | g4Wt25 | g4Wt26 | g4Wt27
  | g4Wt28 | g4Wt29 | g4Wt30 | g4Wt31 | g4Wt32 | g4Wt33 | g4Wt34 | g4Wt35 | g4Wt36 | g4Wt37 | g4Wt38 | g4Wt39
  | g4Wt40 | g4Wt41 | g4Wt42 | g4Wt43 | g4Wt44 | g4Wt45 | g4Wt46 | g4Wt47 | g4Wt48 | g4Wt49 | g4Wt50 | g4Wt51
  | g4Wt52 | g4Wt53 | g4Wt54 | g4Wt55 | g4Wt56 | g4Wt57 | g4Wt58 | g4Wt59 | g4Wt60 | g4Wt61 | g4Wt62 | g4Wt63
  | g4Wm64 | g4Wm128 | g4Wm192 | g4Wm256 | g4Wm320 | g4Wm384 | g4Wm448 | g4Wm512 | g4Wm576 | g4Wm640
  | g4Wm704 | g4Wm768 | g4Wm832 | g4Wm896 | g4Wm960 | g4Wm1024 | g4Wm1088 | g4Wm1152 | g4Wm1216 | g4Wm1280
  | g4Wm1344 | g4Wm1408 | g4Wm1472 | g4Wm1536 | g4Wm1600 | g4Wm1664 | g4Wm1728 | g4Wm1792 | g4Wm1856
  | g4Wm1920 | g4Wm1984 | g4Wm2048 | g4Wm2112 | g4Wm2176 | g4Wm2240 | g4Wm2304 | g4Wm2368 | g4Wm2432
  | g4Wm2496 | g4Wm2560 | g4Bt0 | g4Bt1 | g4Bt2 | g4Bt3 | g4Bt4 | g4Bt5 | g4Bt6 | g4Bt7 | g4Bt8 | g4Bt9
  | g4Bt10 | g4Bt11 | g4Bt12 | g4Bt13 | g4Bt14 | g4Bt15 | g4Bt16 | g4Bt17 | g4Bt18 | g4Bt19 | g4Bt20 | g4Bt21
  | g4Bt22 | g4Bt23 | g4Bt24 | g4Bt25 | g4Bt26 | g4Bt27 | g4Bt28 | g4Bt29 | g4Bt30 | g4Bt31 | g4Bt32 | g4Bt33
  | g4Bt34 | g4Bt35 | g4Bt36 | g4Bt37 | g4Bt38 | g4Bt39 | g4Bt40 | g4Bt41 | g4Bt42 | g4Bt43 | g4Bt44 | g4Bt45
  | g4Bt46 | g4Bt47 | g4Bt48 | g4Bt49 | g4Bt50 | g4Bt51 | g4Bt52 | g4Bt53 | g4Bt54 | g4Bt55 | g4Bt56 | g4Bt57
  | g4Bt58 | g4Bt59 | g4Bt60 | g4Bt61 | g4Bt62 | g4Bt63 | g4Bm64 | g4Bm128 | g4Bm192 | g4Bm256 | g4Bm320
  | g4Bm384 | g4Bm448 | g4Bm512 | g4Bm576 | g4Bm640 | g4Bm704 | g4Bm768 | g4Bm832 | g4Bm896 | g4Bm960
  | g4Bm1024 | g4Bm1088 | g4Bm1152 | g4Bm1216 | g4Bm1280 | g4Bm1344 | g4Bm1408 | g4Bm1472 | g4Bm1536
  | g4Bm1600 | g4Bm1664 | g4Bm1728 | g4Bm1792 | g4Bm1856 | g4Bm1920 | g4Bm1984 | g4Bm2048 | g4Bm2112
  | g4Bm2176 | g4Bm2240 | g4Bm2304 | g4Bm2368 | g4Bm2432 | g4Bm2496 | g4Bm2560
  | cmdStart (u : UnitId)
  | cmdClear (u : UnitId)

  deriving DecidableEq, Repr

end Sys2Proof
end

