-- ==== Sys2Proof/WellFormed.lean ====
section
/-! DEFINITION. Which elements a stream can hold in a context: operand ranges and data lengths (30_encoding.md R101 to
R116), the code classes (R111), the code word tables (R112). -/

namespace Sys2Proof

/-- Where a G4E element's word stands: its table and the index there. In the mode table: pass 0, horizontal 1,
`V[0]` to `V[6]` 2 to 8, EOL 9 (42_g4_encoder.md R240); in the run tables the index of R241 and R242. -/
def Instr.g4Index : Instr → Option (G4Table × Nat)
  | .g4P => some (.mode, 0)
  | .g4H => some (.mode, 1)
  | .g4Vr3 => some (.mode, 2)
  | .g4Vr2 => some (.mode, 3)
  | .g4Vr1 => some (.mode, 4)
  | .g4V0 => some (.mode, 5)
  | .g4Vl1 => some (.mode, 6)
  | .g4Vl2 => some (.mode, 7)
  | .g4Vl3 => some (.mode, 8)
  | .g4Eol => some (.mode, 9)
  | .g4Wt0 => some (.white, 0)
  | .g4Wt1 => some (.white, 1)
  | .g4Wt2 => some (.white, 2)
  | .g4Wt3 => some (.white, 3)
  | .g4Wt4 => some (.white, 4)
  | .g4Wt5 => some (.white, 5)
  | .g4Wt6 => some (.white, 6)
  | .g4Wt7 => some (.white, 7)
  | .g4Wt8 => some (.white, 8)
  | .g4Wt9 => some (.white, 9)
  | .g4Wt10 => some (.white, 10)
  | .g4Wt11 => some (.white, 11)
  | .g4Wt12 => some (.white, 12)
  | .g4Wt13 => some (.white, 13)
  | .g4Wt14 => some (.white, 14)
  | .g4Wt15 => some (.white, 15)
  | .g4Wt16 => some (.white, 16)
  | .g4Wt17 => some (.white, 17)
  | .g4Wt18 => some (.white, 18)
  | .g4Wt19 => some (.white, 19)
  | .g4Wt20 => some (.white, 20)
  | .g4Wt21 => some (.white, 21)
  | .g4Wt22 => some (.white, 22)
  | .g4Wt23 => some (.white, 23)
  | .g4Wt24 => some (.white, 24)
  | .g4Wt25 => some (.white, 25)
  | .g4Wt26 => some (.white, 26)
  | .g4Wt27 => some (.white, 27)
  | .g4Wt28 => some (.white, 28)
  | .g4Wt29 => some (.white, 29)
  | .g4Wt30 => some (.white, 30)
  | .g4Wt31 => some (.white, 31)
  | .g4Wt32 => some (.white, 32)
  | .g4Wt33 => some (.white, 33)
  | .g4Wt34 => some (.white, 34)
  | .g4Wt35 => some (.white, 35)
  | .g4Wt36 => some (.white, 36)
  | .g4Wt37 => some (.white, 37)
  | .g4Wt38 => some (.white, 38)
  | .g4Wt39 => some (.white, 39)
  | .g4Wt40 => some (.white, 40)
  | .g4Wt41 => some (.white, 41)
  | .g4Wt42 => some (.white, 42)
  | .g4Wt43 => some (.white, 43)
  | .g4Wt44 => some (.white, 44)
  | .g4Wt45 => some (.white, 45)
  | .g4Wt46 => some (.white, 46)
  | .g4Wt47 => some (.white, 47)
  | .g4Wt48 => some (.white, 48)
  | .g4Wt49 => some (.white, 49)
  | .g4Wt50 => some (.white, 50)
  | .g4Wt51 => some (.white, 51)
  | .g4Wt52 => some (.white, 52)
  | .g4Wt53 => some (.white, 53)
  | .g4Wt54 => some (.white, 54)
  | .g4Wt55 => some (.white, 55)
  | .g4Wt56 => some (.white, 56)
  | .g4Wt57 => some (.white, 57)
  | .g4Wt58 => some (.white, 58)
  | .g4Wt59 => some (.white, 59)
  | .g4Wt60 => some (.white, 60)
  | .g4Wt61 => some (.white, 61)
  | .g4Wt62 => some (.white, 62)
  | .g4Wt63 => some (.white, 63)
  | .g4Wm64 => some (.white, 64)
  | .g4Wm128 => some (.white, 65)
  | .g4Wm192 => some (.white, 66)
  | .g4Wm256 => some (.white, 67)
  | .g4Wm320 => some (.white, 68)
  | .g4Wm384 => some (.white, 69)
  | .g4Wm448 => some (.white, 70)
  | .g4Wm512 => some (.white, 71)
  | .g4Wm576 => some (.white, 72)
  | .g4Wm640 => some (.white, 73)
  | .g4Wm704 => some (.white, 74)
  | .g4Wm768 => some (.white, 75)
  | .g4Wm832 => some (.white, 76)
  | .g4Wm896 => some (.white, 77)
  | .g4Wm960 => some (.white, 78)
  | .g4Wm1024 => some (.white, 79)
  | .g4Wm1088 => some (.white, 80)
  | .g4Wm1152 => some (.white, 81)
  | .g4Wm1216 => some (.white, 82)
  | .g4Wm1280 => some (.white, 83)
  | .g4Wm1344 => some (.white, 84)
  | .g4Wm1408 => some (.white, 85)
  | .g4Wm1472 => some (.white, 86)
  | .g4Wm1536 => some (.white, 87)
  | .g4Wm1600 => some (.white, 88)
  | .g4Wm1664 => some (.white, 89)
  | .g4Wm1728 => some (.white, 90)
  | .g4Wm1792 => some (.white, 91)
  | .g4Wm1856 => some (.white, 92)
  | .g4Wm1920 => some (.white, 93)
  | .g4Wm1984 => some (.white, 94)
  | .g4Wm2048 => some (.white, 95)
  | .g4Wm2112 => some (.white, 96)
  | .g4Wm2176 => some (.white, 97)
  | .g4Wm2240 => some (.white, 98)
  | .g4Wm2304 => some (.white, 99)
  | .g4Wm2368 => some (.white, 100)
  | .g4Wm2432 => some (.white, 101)
  | .g4Wm2496 => some (.white, 102)
  | .g4Wm2560 => some (.white, 103)
  | .g4Bt0 => some (.black, 0)
  | .g4Bt1 => some (.black, 1)
  | .g4Bt2 => some (.black, 2)
  | .g4Bt3 => some (.black, 3)
  | .g4Bt4 => some (.black, 4)
  | .g4Bt5 => some (.black, 5)
  | .g4Bt6 => some (.black, 6)
  | .g4Bt7 => some (.black, 7)
  | .g4Bt8 => some (.black, 8)
  | .g4Bt9 => some (.black, 9)
  | .g4Bt10 => some (.black, 10)
  | .g4Bt11 => some (.black, 11)
  | .g4Bt12 => some (.black, 12)
  | .g4Bt13 => some (.black, 13)
  | .g4Bt14 => some (.black, 14)
  | .g4Bt15 => some (.black, 15)
  | .g4Bt16 => some (.black, 16)
  | .g4Bt17 => some (.black, 17)
  | .g4Bt18 => some (.black, 18)
  | .g4Bt19 => some (.black, 19)
  | .g4Bt20 => some (.black, 20)
  | .g4Bt21 => some (.black, 21)
  | .g4Bt22 => some (.black, 22)
  | .g4Bt23 => some (.black, 23)
  | .g4Bt24 => some (.black, 24)
  | .g4Bt25 => some (.black, 25)
  | .g4Bt26 => some (.black, 26)
  | .g4Bt27 => some (.black, 27)
  | .g4Bt28 => some (.black, 28)
  | .g4Bt29 => some (.black, 29)
  | .g4Bt30 => some (.black, 30)
  | .g4Bt31 => some (.black, 31)
  | .g4Bt32 => some (.black, 32)
  | .g4Bt33 => some (.black, 33)
  | .g4Bt34 => some (.black, 34)
  | .g4Bt35 => some (.black, 35)
  | .g4Bt36 => some (.black, 36)
  | .g4Bt37 => some (.black, 37)
  | .g4Bt38 => some (.black, 38)
  | .g4Bt39 => some (.black, 39)
  | .g4Bt40 => some (.black, 40)
  | .g4Bt41 => some (.black, 41)
  | .g4Bt42 => some (.black, 42)
  | .g4Bt43 => some (.black, 43)
  | .g4Bt44 => some (.black, 44)
  | .g4Bt45 => some (.black, 45)
  | .g4Bt46 => some (.black, 46)
  | .g4Bt47 => some (.black, 47)
  | .g4Bt48 => some (.black, 48)
  | .g4Bt49 => some (.black, 49)
  | .g4Bt50 => some (.black, 50)
  | .g4Bt51 => some (.black, 51)
  | .g4Bt52 => some (.black, 52)
  | .g4Bt53 => some (.black, 53)
  | .g4Bt54 => some (.black, 54)
  | .g4Bt55 => some (.black, 55)
  | .g4Bt56 => some (.black, 56)
  | .g4Bt57 => some (.black, 57)
  | .g4Bt58 => some (.black, 58)
  | .g4Bt59 => some (.black, 59)
  | .g4Bt60 => some (.black, 60)
  | .g4Bt61 => some (.black, 61)
  | .g4Bt62 => some (.black, 62)
  | .g4Bt63 => some (.black, 63)
  | .g4Bm64 => some (.black, 64)
  | .g4Bm128 => some (.black, 65)
  | .g4Bm192 => some (.black, 66)
  | .g4Bm256 => some (.black, 67)
  | .g4Bm320 => some (.black, 68)
  | .g4Bm384 => some (.black, 69)
  | .g4Bm448 => some (.black, 70)
  | .g4Bm512 => some (.black, 71)
  | .g4Bm576 => some (.black, 72)
  | .g4Bm640 => some (.black, 73)
  | .g4Bm704 => some (.black, 74)
  | .g4Bm768 => some (.black, 75)
  | .g4Bm832 => some (.black, 76)
  | .g4Bm896 => some (.black, 77)
  | .g4Bm960 => some (.black, 78)
  | .g4Bm1024 => some (.black, 79)
  | .g4Bm1088 => some (.black, 80)
  | .g4Bm1152 => some (.black, 81)
  | .g4Bm1216 => some (.black, 82)
  | .g4Bm1280 => some (.black, 83)
  | .g4Bm1344 => some (.black, 84)
  | .g4Bm1408 => some (.black, 85)
  | .g4Bm1472 => some (.black, 86)
  | .g4Bm1536 => some (.black, 87)
  | .g4Bm1600 => some (.black, 88)
  | .g4Bm1664 => some (.black, 89)
  | .g4Bm1728 => some (.black, 90)
  | .g4Bm1792 => some (.black, 91)
  | .g4Bm1856 => some (.black, 92)
  | .g4Bm1920 => some (.black, 93)
  | .g4Bm1984 => some (.black, 94)
  | .g4Bm2048 => some (.black, 95)
  | .g4Bm2112 => some (.black, 96)
  | .g4Bm2176 => some (.black, 97)
  | .g4Bm2240 => some (.black, 98)
  | .g4Bm2304 => some (.black, 99)
  | .g4Bm2368 => some (.black, 100)
  | .g4Bm2432 => some (.black, 101)
  | .g4Bm2496 => some (.black, 102)
  | .g4Bm2560 => some (.black, 103)
  | _ => none

/-- `CLEAR`, `EOI` and `FIRST_FREE` of 41_lzw.md R181. -/
def LzwCx.clear (x : LzwCx) : Nat := 2 ^ x.n

/-- See `LzwCx.clear`. -/
def LzwCx.eoi (x : LzwCx) : Nat := 2 ^ x.n + 1

/-- See `LzwCx.clear`. -/
def LzwCx.firstFree (x : LzwCx) : Nat := 2 ^ x.n + 2

/-- The registers' ranges in a legal run (10_state.md R31, R36). -/
def LzwCx.ok (x : LzwCx) : Bool :=
  decide (2 ≤ x.n) && decide (x.n ≤ 8) && decide (x.n < x.codeSize) && decide (x.codeSize ≤ 12) &&
    decide (x.firstFree ≤ x.avail) && decide (x.avail ≤ 4096)

/-- The code classes of 30_encoding.md R111: `c` names a literal or a table entry. -/
def LzwCx.isRef (x : LzwCx) (c : Nat) : Bool :=
  decide (c < x.clear) || (decide (x.firstFree ≤ c) && decide (c < x.avail))

/-- `c` is illegal (41_lzw.md R195). -/
def LzwCx.isIllegal (x : LzwCx) (c : Nat) : Bool :=
  if x.oldValid then decide (x.avail < c) else decide (x.eoi < c)

/-- `c` can be written in `CODE_SIZE` bits. -/
def LzwCx.fits (x : LzwCx) (c : Nat) : Bool := decide (c < 2 ^ x.codeSize)

/-- The pixel count of an absolute run and its number of data bytes (30_encoding.md R106, R107). -/
def absDataBytes (mode4 : Bool) (n : Nat) : Nat := if mode4 then ceilDiv n 2 else n

/-- The element `i` can stand in a stream met in context `cx`. -/
def wf (cx : Cx) (i : Instr) : Bool :=
  match cx, i with
  | .scan prb, .ftNone raw | .scan prb, .ftSub raw | .scan prb, .ftUp raw | .scan prb, .ftAvg raw
  | .scan prb, .ftPaeth raw => raw.length == prb
  | .rle false, .rle8Run n _ => n != 0
  | .rle true, .rle4Run n _ _ => n != 0
  | .rle _, .rleEol | .rle _, .rleEob | .rle _, .rleDelta _ _ => true
  | .rle false, .rle8Abs n d => decide (3 ≤ n.toNat) && d.length == absDataBytes false n.toNat
  | .rle true, .rle4Abs n d => decide (3 ≤ n.toNat) && d.length == absDataBytes true n.toNat
  | .lzw x, .lzwClear | .lzw x, .lzwEoi => x.ok
  | .lzw x, .lzwLit c => x.ok && !x.oldValid && decide (c.toNat < x.clear)
  | .lzw x, .lzwRef c => x.ok && x.oldValid && x.isRef c.toNat && x.fits c.toNat
  | .lzw x, .lzwKwk => x.ok && x.oldValid && decide (x.avail < 4096) && x.fits x.avail
  | .lzw x, .lzwIllegal c => x.ok && x.isIllegal c.toNat && x.fits c.toNat
  | .g4 t, i => (i.g4Index.map Prod.fst) == some t
  | .cmd u, .cmdStart u' | .cmd u, .cmdClear u' => u == u'
  | _, _ => false

end Sys2Proof
end

