-- ==== Sys2Proof/Decode.lean ====
section
/-! DEFINITION. Decoding and encoding of the elements (30_encoding.md), and the printed code tables (42_g4_encoder.md R240
to R242). The decoders are total and reject by name; the encoder writes what a well-formed element is encoded as. -/

namespace Sys2Proof

/-! ### The printed code tables -/

/-- `MODE_TAB` as printed in 42_g4_encoder.md R240. -/
def printedModeTab : ModeTab where
  pass := ⟨4, 0x1⟩
  horiz := ⟨3, 0x1⟩
  vr3 := ⟨7, 0x03⟩
  vr2 := ⟨6, 0x03⟩
  vr1 := ⟨3, 0x3⟩
  v0 := ⟨1, 0x1⟩
  vl1 := ⟨3, 0x2⟩
  vl2 := ⟨6, 0x02⟩
  vl3 := ⟨7, 0x02⟩
  eol := ⟨12, 0x001⟩

/-- `WHITE_TAB` as printed in 42_g4_encoder.md R241: the entries from index 0. -/
def printedWhiteTab0 : List CodeWord :=
  [⟨8, 0x35⟩, ⟨6, 0x7⟩, ⟨4, 0x7⟩, ⟨4, 0x8⟩, ⟨4, 0xB⟩, ⟨4, 0xC⟩, ⟨4, 0xE⟩, ⟨4, 0xF⟩, ⟨5, 0x13⟩, ⟨5, 0x14⟩,
   ⟨5, 0x7⟩, ⟨5, 0x8⟩, ⟨6, 0x8⟩, ⟨6, 0x3⟩, ⟨6, 0x34⟩, ⟨6, 0x35⟩, ⟨6, 0x2A⟩, ⟨6, 0x2B⟩, ⟨7, 0x27⟩, ⟨7, 0xC⟩,
   ⟨7, 0x8⟩, ⟨7, 0x17⟩, ⟨7, 0x3⟩, ⟨7, 0x4⟩, ⟨7, 0x28⟩, ⟨7, 0x2B⟩]

/-- `WHITE_TAB` as printed in 42_g4_encoder.md R241: the entries from index 26. -/
def printedWhiteTab26 : List CodeWord :=
  [⟨7, 0x13⟩, ⟨7, 0x24⟩, ⟨7, 0x18⟩, ⟨8, 0x2⟩, ⟨8, 0x3⟩, ⟨8, 0x1A⟩, ⟨8, 0x1B⟩, ⟨8, 0x12⟩, ⟨8, 0x13⟩, ⟨8, 0x14⟩,
   ⟨8, 0x15⟩, ⟨8, 0x16⟩, ⟨8, 0x17⟩, ⟨8, 0x28⟩, ⟨8, 0x29⟩, ⟨8, 0x2A⟩, ⟨8, 0x2B⟩, ⟨8, 0x2C⟩, ⟨8, 0x2D⟩, ⟨8, 0x4⟩,
   ⟨8, 0x5⟩, ⟨8, 0xA⟩, ⟨8, 0xB⟩, ⟨8, 0x52⟩, ⟨8, 0x53⟩, ⟨8, 0x54⟩]

/-- `WHITE_TAB` as printed in 42_g4_encoder.md R241: the entries from index 52. -/
def printedWhiteTab52 : List CodeWord :=
  [⟨8, 0x55⟩, ⟨8, 0x24⟩, ⟨8, 0x25⟩, ⟨8, 0x58⟩, ⟨8, 0x59⟩, ⟨8, 0x5A⟩, ⟨8, 0x5B⟩, ⟨8, 0x4A⟩, ⟨8, 0x4B⟩,
   ⟨8, 0x32⟩, ⟨8, 0x33⟩, ⟨8, 0x34⟩, ⟨5, 0x1B⟩, ⟨5, 0x12⟩, ⟨6, 0x17⟩, ⟨7, 0x37⟩, ⟨8, 0x36⟩, ⟨8, 0x37⟩,
   ⟨8, 0x64⟩, ⟨8, 0x65⟩, ⟨8, 0x68⟩, ⟨8, 0x67⟩, ⟨9, 0xCC⟩, ⟨9, 0xCD⟩, ⟨9, 0xD2⟩, ⟨9, 0xD3⟩]

/-- `WHITE_TAB` as printed in 42_g4_encoder.md R241: the entries from index 78. -/
def printedWhiteTab78 : List CodeWord :=
  [⟨9, 0xD4⟩, ⟨9, 0xD5⟩, ⟨9, 0xD6⟩, ⟨9, 0xD7⟩, ⟨9, 0xD8⟩, ⟨9, 0xD9⟩, ⟨9, 0xDA⟩, ⟨9, 0xDB⟩, ⟨9, 0x98⟩,
   ⟨9, 0x99⟩, ⟨9, 0x9A⟩, ⟨6, 0x18⟩, ⟨9, 0x9B⟩, ⟨11, 0x8⟩, ⟨11, 0xC⟩, ⟨11, 0xD⟩, ⟨12, 0x12⟩, ⟨12, 0x13⟩,
   ⟨12, 0x14⟩, ⟨12, 0x15⟩, ⟨12, 0x16⟩, ⟨12, 0x17⟩, ⟨12, 0x1C⟩, ⟨12, 0x1D⟩, ⟨12, 0x1E⟩, ⟨12, 0x1F⟩]

/-- `WHITE_TAB` as printed in 42_g4_encoder.md R241. -/
def printedWhiteTab : List CodeWord := printedWhiteTab0 ++ printedWhiteTab26 ++ printedWhiteTab52 ++ printedWhiteTab78

/-- `BLACK_TAB` as printed in 42_g4_encoder.md R242: the entries from index 0. -/
def printedBlackTab0 : List CodeWord :=
  [⟨10, 0x37⟩, ⟨3, 0x2⟩, ⟨2, 0x3⟩, ⟨2, 0x2⟩, ⟨3, 0x3⟩, ⟨4, 0x3⟩, ⟨4, 0x2⟩, ⟨5, 0x3⟩, ⟨6, 0x5⟩, ⟨6, 0x4⟩,
   ⟨7, 0x4⟩, ⟨7, 0x5⟩, ⟨7, 0x7⟩, ⟨8, 0x4⟩, ⟨8, 0x7⟩, ⟨9, 0x18⟩, ⟨10, 0x17⟩, ⟨10, 0x18⟩, ⟨10, 0x8⟩, ⟨11, 0x67⟩,
   ⟨11, 0x68⟩, ⟨11, 0x6C⟩, ⟨11, 0x37⟩, ⟨11, 0x28⟩, ⟨11, 0x17⟩, ⟨11, 0x18⟩]

/-- `BLACK_TAB` as printed in 42_g4_encoder.md R242: the entries from index 26. -/
def printedBlackTab26 : List CodeWord :=
  [⟨12, 0xCA⟩, ⟨12, 0xCB⟩, ⟨12, 0xCC⟩, ⟨12, 0xCD⟩, ⟨12, 0x68⟩, ⟨12, 0x69⟩, ⟨12, 0x6A⟩, ⟨12, 0x6B⟩, ⟨12, 0xD2⟩,
   ⟨12, 0xD3⟩, ⟨12, 0xD4⟩, ⟨12, 0xD5⟩, ⟨12, 0xD6⟩, ⟨12, 0xD7⟩, ⟨12, 0x6C⟩, ⟨12, 0x6D⟩, ⟨12, 0xDA⟩, ⟨12, 0xDB⟩,
   ⟨12, 0x54⟩, ⟨12, 0x55⟩, ⟨12, 0x56⟩, ⟨12, 0x57⟩, ⟨12, 0x64⟩, ⟨12, 0x65⟩, ⟨12, 0x52⟩, ⟨12, 0x53⟩]

/-- `BLACK_TAB` as printed in 42_g4_encoder.md R242: the entries from index 52. -/
def printedBlackTab52 : List CodeWord :=
  [⟨12, 0x24⟩, ⟨12, 0x37⟩, ⟨12, 0x38⟩, ⟨12, 0x27⟩, ⟨12, 0x28⟩, ⟨12, 0x58⟩, ⟨12, 0x59⟩, ⟨12, 0x2B⟩, ⟨12, 0x2C⟩,
   ⟨12, 0x5A⟩, ⟨12, 0x66⟩, ⟨12, 0x67⟩, ⟨10, 0xF⟩, ⟨12, 0xC8⟩, ⟨12, 0xC9⟩, ⟨12, 0x5B⟩, ⟨12, 0x33⟩, ⟨12, 0x34⟩,
   ⟨12, 0x35⟩, ⟨13, 0x6C⟩, ⟨13, 0x6D⟩, ⟨13, 0x4A⟩, ⟨13, 0x4B⟩, ⟨13, 0x4C⟩, ⟨13, 0x4D⟩, ⟨13, 0x72⟩]

/-- `BLACK_TAB` as printed in 42_g4_encoder.md R242: the entries from index 78. -/
def printedBlackTab78 : List CodeWord :=
  [⟨13, 0x73⟩, ⟨13, 0x74⟩, ⟨13, 0x75⟩, ⟨13, 0x76⟩, ⟨13, 0x77⟩, ⟨13, 0x52⟩, ⟨13, 0x53⟩, ⟨13, 0x54⟩, ⟨13, 0x55⟩,
   ⟨13, 0x5A⟩, ⟨13, 0x5B⟩, ⟨13, 0x64⟩, ⟨13, 0x65⟩, ⟨11, 0x8⟩, ⟨11, 0xC⟩, ⟨11, 0xD⟩, ⟨12, 0x12⟩, ⟨12, 0x13⟩,
   ⟨12, 0x14⟩, ⟨12, 0x15⟩, ⟨12, 0x16⟩, ⟨12, 0x17⟩, ⟨12, 0x1C⟩, ⟨12, 0x1D⟩, ⟨12, 0x1E⟩, ⟨12, 0x1F⟩]

/-- `BLACK_TAB` as printed in 42_g4_encoder.md R242. -/
def printedBlackTab : List CodeWord := printedBlackTab0 ++ printedBlackTab26 ++ printedBlackTab52 ++ printedBlackTab78

/-- The elements of the white run words in index order (30_encoding.md R114): the entries from index 0. -/
def whiteInstrs0 : List Instr :=
  [.g4Wt0, .g4Wt1, .g4Wt2, .g4Wt3, .g4Wt4, .g4Wt5, .g4Wt6, .g4Wt7, .g4Wt8, .g4Wt9, .g4Wt10, .g4Wt11, .g4Wt12,
   .g4Wt13, .g4Wt14, .g4Wt15, .g4Wt16, .g4Wt17, .g4Wt18, .g4Wt19, .g4Wt20, .g4Wt21, .g4Wt22, .g4Wt23, .g4Wt24,
   .g4Wt25]

/-- The elements of the white run words in index order (30_encoding.md R114): the entries from index 26. -/
def whiteInstrs26 : List Instr :=
  [.g4Wt26, .g4Wt27, .g4Wt28, .g4Wt29, .g4Wt30, .g4Wt31, .g4Wt32, .g4Wt33, .g4Wt34, .g4Wt35, .g4Wt36, .g4Wt37,
   .g4Wt38, .g4Wt39, .g4Wt40, .g4Wt41, .g4Wt42, .g4Wt43, .g4Wt44, .g4Wt45, .g4Wt46, .g4Wt47, .g4Wt48, .g4Wt49,
   .g4Wt50, .g4Wt51]

/-- The elements of the white run words in index order (30_encoding.md R114): the entries from index 52. -/
def whiteInstrs52 : List Instr :=
  [.g4Wt52, .g4Wt53, .g4Wt54, .g4Wt55, .g4Wt56, .g4Wt57, .g4Wt58, .g4Wt59, .g4Wt60, .g4Wt61, .g4Wt62, .g4Wt63,
   .g4Wm64, .g4Wm128, .g4Wm192, .g4Wm256, .g4Wm320, .g4Wm384, .g4Wm448, .g4Wm512, .g4Wm576, .g4Wm640, .g4Wm704,
   .g4Wm768, .g4Wm832, .g4Wm896]

/-- The elements of the white run words in index order (30_encoding.md R114): the entries from index 78. -/
def whiteInstrs78 : List Instr :=
  [.g4Wm960, .g4Wm1024, .g4Wm1088, .g4Wm1152, .g4Wm1216, .g4Wm1280, .g4Wm1344, .g4Wm1408, .g4Wm1472, .g4Wm1536,
   .g4Wm1600, .g4Wm1664, .g4Wm1728, .g4Wm1792, .g4Wm1856, .g4Wm1920, .g4Wm1984, .g4Wm2048, .g4Wm2112,
   .g4Wm2176, .g4Wm2240, .g4Wm2304, .g4Wm2368, .g4Wm2432, .g4Wm2496, .g4Wm2560]

/-- The elements of the white run words in index order (30_encoding.md R114). -/
def whiteInstrs : List Instr := whiteInstrs0 ++ whiteInstrs26 ++ whiteInstrs52 ++ whiteInstrs78

/-- The elements of the black run words in index order (30_encoding.md R114): the entries from index 0. -/
def blackInstrs0 : List Instr :=
  [.g4Bt0, .g4Bt1, .g4Bt2, .g4Bt3, .g4Bt4, .g4Bt5, .g4Bt6, .g4Bt7, .g4Bt8, .g4Bt9, .g4Bt10, .g4Bt11, .g4Bt12,
   .g4Bt13, .g4Bt14, .g4Bt15, .g4Bt16, .g4Bt17, .g4Bt18, .g4Bt19, .g4Bt20, .g4Bt21, .g4Bt22, .g4Bt23, .g4Bt24,
   .g4Bt25]

/-- The elements of the black run words in index order (30_encoding.md R114): the entries from index 26. -/
def blackInstrs26 : List Instr :=
  [.g4Bt26, .g4Bt27, .g4Bt28, .g4Bt29, .g4Bt30, .g4Bt31, .g4Bt32, .g4Bt33, .g4Bt34, .g4Bt35, .g4Bt36, .g4Bt37,
   .g4Bt38, .g4Bt39, .g4Bt40, .g4Bt41, .g4Bt42, .g4Bt43, .g4Bt44, .g4Bt45, .g4Bt46, .g4Bt47, .g4Bt48, .g4Bt49,
   .g4Bt50, .g4Bt51]

/-- The elements of the black run words in index order (30_encoding.md R114): the entries from index 52. -/
def blackInstrs52 : List Instr :=
  [.g4Bt52, .g4Bt53, .g4Bt54, .g4Bt55, .g4Bt56, .g4Bt57, .g4Bt58, .g4Bt59, .g4Bt60, .g4Bt61, .g4Bt62, .g4Bt63,
   .g4Bm64, .g4Bm128, .g4Bm192, .g4Bm256, .g4Bm320, .g4Bm384, .g4Bm448, .g4Bm512, .g4Bm576, .g4Bm640, .g4Bm704,
   .g4Bm768, .g4Bm832, .g4Bm896]

/-- The elements of the black run words in index order (30_encoding.md R114): the entries from index 78. -/
def blackInstrs78 : List Instr :=
  [.g4Bm960, .g4Bm1024, .g4Bm1088, .g4Bm1152, .g4Bm1216, .g4Bm1280, .g4Bm1344, .g4Bm1408, .g4Bm1472, .g4Bm1536,
   .g4Bm1600, .g4Bm1664, .g4Bm1728, .g4Bm1792, .g4Bm1856, .g4Bm1920, .g4Bm1984, .g4Bm2048, .g4Bm2112,
   .g4Bm2176, .g4Bm2240, .g4Bm2304, .g4Bm2368, .g4Bm2432, .g4Bm2496, .g4Bm2560]

/-- The elements of the black run words in index order (30_encoding.md R114). -/
def blackInstrs : List Instr := blackInstrs0 ++ blackInstrs26 ++ blackInstrs52 ++ blackInstrs78

/-- The elements of the mode words, in the order of `Instr.g4Index`. -/
def modeInstrs : List Instr :=
  [.g4P, .g4H, .g4Vr3, .g4Vr2, .g4Vr1, .g4V0, .g4Vl1, .g4Vl2, .g4Vl3, .g4Eol]

/-- The default parameters of 00_scope.md R7, with the printed tables. -/
def defaultConfig : Config where
  maxIn := 2 ^ 24
  maxOut := 2 ^ 24
  maxW := 65535
  maxH := 65535
  hasTiffLzw := true
  modeTab := printedModeTab
  whiteTab := printedWhiteTab
  blackTab := printedBlackTab

/-- The words of a table as printed, in index order. -/
def printedCodes : G4Table → List CodeWord
  | .mode => printedModeTab.modes ++ [printedModeTab.eol]
  | .white => printedWhiteTab
  | .black => printedBlackTab

/-- The elements of a table, in index order. -/
def g4Instrs : G4Table → List Instr
  | .mode => modeInstrs
  | .white => whiteInstrs
  | .black => blackInstrs

/-- The element of a run word (30_encoding.md R114, R120); `none` for no index below 104. -/
def RunWord.instr (w : RunWord) : Option Instr :=
  match w.colour with
  | .white => whiteInstrs[w.index.val]?
  | .black => blackInstrs[w.index.val]?

/-! ### Pieces of an encoding -/

/-- Bits 7:4 of a byte. -/
def hiNibble (b : Byte) : BitVec 4 := b.extractLsb' 4 4

/-- Bits 3:0 of a byte. -/
def loNibble (b : Byte) : BitVec 4 := b.extractLsb' 0 4

/-- The byte `hhhhllll`. -/
def nibbles (h l : BitVec 4) : Byte := h ++ l

/-- The value of bits of which the first is the least significant (30_encoding.md R109). -/
def lsbValue : List Bool → Nat
  | [] => 0
  | b :: bs => b.toNat + 2 * lsbValue bs

/-- The `w` bits of a number, least significant first. -/
def lsbBits : Nat → Nat → List Bool
  | 0, _ => []
  | w + 1, v => (v % 2 == 1) :: lsbBits w (v / 2)

/-- The value of bits of which the first is the most significant (30_encoding.md R110). -/
def msbValue (bs : List Bool) : Nat := lsbValue bs.reverse

/-- The `w` bits of a number, most significant first. -/
def msbBits (w v : Nat) : List Bool := (lsbBits w v).reverse

/-- A code word as sent (30_encoding.md R112). -/
def CodeWord.bits (c : CodeWord) : List Bool := msbBits c.len c.code

/-- The filter-type byte (30_encoding.md R102). -/
def Filter.byte : Filter → Byte
  | .none => 0
  | .sub => 1
  | .up => 2
  | .avg => 3
  | .paeth => 4

/-- The filter of a filter-type byte; the whole byte is compared (30_encoding.md R102). -/
def filterOf (ft : Byte) : Option Filter :=
  if ft = 0 then some .none else if ft = 1 then some .sub else if ft = 2 then some .up
  else if ft = 3 then some .avg else if ft = 4 then some .paeth else none

/-- The element of a filter. -/
def Filter.instr (f : Filter) (raw : List Byte) : Instr :=
  match f with
  | .none => .ftNone raw
  | .sub => .ftSub raw
  | .up => .ftUp raw
  | .avg => .ftAvg raw
  | .paeth => .ftPaeth raw

/-- `pad = nb mod 2` (43_bmp_rle.md R271): the pad bytes after `nb` data bytes of an absolute run. -/
def padBytes (nb : Nat) : Nat := nb % 2

/-! ### Decoding -/

/-- Why a decoder finds no element. -/
inductive Reject where
  /-- The stream ends before the element is complete (60_exceptions.md R314). -/
  | truncated
  /-- The filter-type byte is above 4 (40_png_filter.md R151). -/
  | badFilter
  /-- A `CTRL` value other than 1 and 2 (44_host_commands.md R294). -/
  | reservedCommand
  /-- The bits begin no word of the table (30_encoding.md R112). -/
  | noCodeWord
  /-- The code is of another kind than the context's (bytes, bits or word), or longer than one element. -/
  | otherForm
  deriving DecidableEq, Repr

/-- A PFE record at the head of the bytes (30_encoding.md R101, R102), with the checks in the order of 60_exceptions.md
R320: filter byte present, filter byte legal, record complete. Answers the element and the bytes after it. -/
def decodeScan (prb : Nat) (bs : List Byte) : Except Reject (Instr × List Byte) :=
  match bs with
  | [] => .error .truncated
  | ft :: rest =>
    match filterOf ft with
    | none => .error .badFilter
    | some f => if rest.length < prb then .error .truncated else .ok (f.instr (rest.take prb), rest.drop prb)

/-- An RLD command at the head of the bytes (30_encoding.md R103 to R108; 43_bmp_rle.md R263, R268 to R271). -/
def decodeRle (mode4 : Bool) (bs : List Byte) : Except Reject (Instr × List Byte) :=
  match bs with
  | b0 :: b1 :: rest =>
    if b0 ≠ 0 then .ok (if mode4 then .rle4Run b0 (hiNibble b1) (loNibble b1) else .rle8Run b0 b1, rest)
    else if b1 = 0 then .ok (.rleEol, rest)
    else if b1 = 1 then .ok (.rleEob, rest)
    else if b1 = 2 then
      match rest with
      | dx :: dy :: rest' => .ok (.rleDelta dx dy, rest')
      | _ => .error .truncated
    else
      let nb := absDataBytes mode4 b1.toNat
      if rest.length < nb + padBytes nb then .error .truncated
      else .ok (if mode4 then .rle4Abs b1 (rest.take nb) else .rle8Abs b1 (rest.take nb), rest.drop (nb + padBytes nb))
  | _ => .error .truncated

/-- The class of a fetched code, in the order of 30_encoding.md R111. -/
def classify (x : LzwCx) (c : BitVec 12) : Instr :=
  if c.toNat = x.clear then .lzwClear
  else if c.toNat = x.eoi then .lzwEoi
  else if x.oldValid then
    if x.isRef c.toNat then .lzwRef c else if c.toNat = x.avail then .lzwKwk else .lzwIllegal c
  else if c.toNat < x.clear then .lzwLit c else .lzwIllegal c

/-- An LZW code at the head of the bits (30_encoding.md R109, R110). -/
def decodeLzw (x : LzwCx) (bs : List Bool) : Except Reject (Instr × List Bool) :=
  if bs.length < x.codeSize then .error .truncated
  else
    let w := bs.take x.codeSize
    .ok (classify x (BitVec.ofNat 12 (if x.tiff then msbValue w else lsbValue w)), bs.drop x.codeSize)

/-- The first pair whose word's bits begin the given bits. -/
def matchWord (bs : List Bool) : List (CodeWord × Instr) → Option (CodeWord × Instr)
  | [] => none
  | p :: ps => if p.1.bits.isPrefixOf bs then some p else matchWord bs ps

/-- A code word of a table at the head of the bits (30_encoding.md R112, R120). -/
def decodeG4 (t : G4Table) (bs : List Bool) : Except Reject (Instr × List Bool) :=
  match matchWord bs ((printedCodes t).zip (g4Instrs t)) with
  | none => .error .noCodeWord
  | some p => .ok (p.2, bs.drop p.1.len)

/-- A value written to the `CTRL` register of a unit (30_encoding.md R116). -/
def decodeCmd (u : UnitId) (v : Word) : Except Reject Instr :=
  if v = 1 then .ok (.cmdStart u) else if v = 2 then .ok (.cmdClear u) else .error .reservedCommand

/-- Accepts a decoder's answer only where nothing is left over. -/
def whole {α : Type} (r : Except Reject (Instr × List α)) : Except Reject Instr :=
  match r with
  | .error e => .error e
  | .ok (i, []) => .ok i
  | .ok (_, _ :: _) => .error .otherForm

/-- The element that a code is, in a context. -/
def decode (cx : Cx) (c : Code) : Except Reject Instr :=
  match cx, c with
  | .scan prb, .bytes bs => whole (decodeScan prb bs)
  | .rle m, .bytes bs => whole (decodeRle m bs)
  | .lzw x, .bits bs => whole (decodeLzw x bs)
  | .g4 t, .bits bs => whole (decodeG4 t bs)
  | .cmd u, .word v => decodeCmd u v
  | _, _ => .error .otherForm

/-! ### Encoding -/

/-- An LZW code as stream bits (30_encoding.md R109, R110). -/
def LzwCx.bits (x : LzwCx) (c : Nat) : List Bool :=
  if x.tiff then msbBits x.codeSize c else lsbBits x.codeSize c

/-- The bytes of an absolute run; the pad byte is written `00` (30_encoding.md R118). -/
def absBytes (n : Byte) (d : List Byte) : List Byte := 0 :: n :: (d ++ List.replicate (padBytes d.length) 0)

/-- The code word of a G4E element, as printed. -/
def Instr.g4Word (i : Instr) : Option CodeWord := i.g4Index.bind fun p => (printedCodes p.1)[p.2]?

/-- What an element is encoded as in a context; `none` where the context's stream holds no such element. -/
def encode (cx : Cx) (i : Instr) : Option Code :=
  match cx, i with
  | .scan _, .ftNone raw => some (.bytes (Filter.none.byte :: raw))
  | .scan _, .ftSub raw => some (.bytes (Filter.sub.byte :: raw))
  | .scan _, .ftUp raw => some (.bytes (Filter.up.byte :: raw))
  | .scan _, .ftAvg raw => some (.bytes (Filter.avg.byte :: raw))
  | .scan _, .ftPaeth raw => some (.bytes (Filter.paeth.byte :: raw))
  | .rle false, .rle8Run n v => some (.bytes [n, v])
  | .rle true, .rle4Run n h l => some (.bytes [n, nibbles h l])
  | .rle _, .rleEol => some (.bytes [0, 0])
  | .rle _, .rleEob => some (.bytes [0, 1])
  | .rle _, .rleDelta dx dy => some (.bytes [0, 2, dx, dy])
  | .rle false, .rle8Abs n d => some (.bytes (absBytes n d))
  | .rle true, .rle4Abs n d => some (.bytes (absBytes n d))
  | .lzw x, .lzwClear => some (.bits (x.bits x.clear))
  | .lzw x, .lzwEoi => some (.bits (x.bits x.eoi))
  | .lzw x, .lzwLit c => some (.bits (x.bits c.toNat))
  | .lzw x, .lzwRef c => some (.bits (x.bits c.toNat))
  | .lzw x, .lzwKwk => some (.bits (x.bits x.avail))
  | .lzw x, .lzwIllegal c => some (.bits (x.bits c.toNat))
  | .g4 _, i => i.g4Word.map fun w => .bits w.bits
  | .cmd _, .cmdStart _ => some (.word 1)
  | .cmd _, .cmdClear _ => some (.word 2)
  | _, _ => none

/-! ### The host's table words -/

/-- The lowest `n` bytes of a number, the most significant first: spec/opcode_table.json numbers a row's first byte
highest (its `match` of `RLE.DELTA`, bytes `00 02 dx dy`, is `0x00020000`). -/
def tableBytes : Nat → Nat → List Byte
  | 0, _ => []
  | n + 1, w => BitVec.ofNat 8 (w >>> (8 * n)) :: tableBytes n w

/-- The element of a code word that is not a whole number of bytes or is none of the byte-oriented rows: the mode table,
then white, then black. -/
def tableG4 (nbits w : Nat) : Option Instr :=
  let bs := msbBits nbits w
  let pick (t : G4Table) : Option Instr := (whole (decodeG4 t bs)).toOption
  ((pick .mode).orElse fun _ => (pick .white).orElse fun _ => pick .black)

/-- The instruction the decoder reads from a row of spec/opcode_table.json whose bits are `w` (log 10). The table gives
no context, so: 32 bits with the value 1 or 2 are a write to the `CTRL` of PFE, other 16 and 32 bits an RLD command in RLE8 mode
followed by zero bytes, 8 bits a PFE filter-type byte before a one-byte line or, above 4, a code word, any other length a code
word. -/
def decodeTableWord (nbits w : Nat) : Option Instr :=
  if nbits = 8 then
    match decodeScan 1 (tableBytes 1 w ++ [0]) with
    | .ok (i, _) => some i
    | .error _ => tableG4 nbits w
  else if nbits = 32 && (decide (w = 1) || decide (w = 2)) then (decodeCmd .pfe (BitVec.ofNat 32 w)).toOption
  else if nbits = 16 || nbits = 32 then
    ((decodeRle false (tableBytes (nbits / 8) w ++ List.replicate 256 0)).toOption).map Prod.fst
  else tableG4 nbits w

end Sys2Proof
end

