-- ==== Sys2Proof/Machine/State.lean ====
section
/-! DEFINITION. The state of the block as plain data (10_state.md), the reasons a step can stop, and the state after
reset (70_reset_and_hazards.md R351, R352). -/

namespace Sys2Proof.Machine

/-- `STATUS.STATE` (10_state.md R23). -/
inductive RunState where
  | idle | busy | done | fault
  deriving DecidableEq, Repr

/-- `STATUS.ERR` (60_exceptions.md R311); the codes 7 to 15 are never produced. -/
inductive ErrCode where
  | none | cfg | filter | trunc | lzwCode | bounds | ovf
  deriving DecidableEq, Repr

/-- The flags of `STATUS` (10_state.md R23, R47). -/
structure Flags where
  inRem : Bool
  short : Bool
  under : Bool
  deriving DecidableEq, Repr

/-- All flags clear. -/
def Flags.clear : Flags := ⟨false, false, false⟩

/-- What every unit has (10_state.md sections 1, 2 and 4): the host-visible registers and the two buffers. `CTRL` and the
reserved registers hold no state (R22, R29). `STATUS` is kept by its fields (its reserved bits are constant 0), `IEN` by its one
bit; a configuration register holds only its defined bits (44_host_commands.md R291). -/
structure Shell where
  /-- `STATUS` 1:0 -/
  state : RunState
  /-- `STATUS` 7:4 -/
  err : ErrCode
  /-- `STATUS` 10:8 -/
  flags : Flags
  /-- `IEN` bit 0 (R24) -/
  ie : Bool
  /-- R25 -/
  inLen : Word
  /-- R26 -/
  inPos : Word
  /-- R27 -/
  outLen : Word
  /-- R28 -/
  errPos : Word
  /-- Register 8: PFE, G4E, RLD `WIDTH`; LZD `LZW_CFG` (R30 to R33) -/
  cfg0 : Word
  /-- Register 9: PFE, G4E, RLD `HEIGHT`; LZD `OUT_MAX` -/
  cfg1 : Word
  /-- Register 10: PFE `FMT`; RLD `RLE_CFG`; reserved in LZD and G4E -/
  cfg2 : Word
  /-- `IN` (R41): the bytes stored in it -/
  inBuf : Mem 8
  /-- `OUT` (R42): the bytes stored in it -/
  outBuf : Mem 8
  /-- MODEL's own (log 1): which unspecified content the unlisted cells of `IN` and of the working memories show -/
  inGen : Nat
  /-- MODEL's own (log 1): the same for `OUT` -/
  outGen : Nat
  deriving DecidableEq, Repr

/-- PFE (10_state.md R34, R35). -/
structure Pfe where
  sh : Shell
  pass : BitVec 4
  row : Word
  pw : Word
  ph : Word
  prb : Word
  curr : Mem 8
  prior : Mem 8
  deriving DecidableEq, Repr

/-- LZD (10_state.md R36, R37). -/
structure Lzd where
  sh : Shell
  codeSize : BitVec 4
  avail : BitVec 13
  old : BitVec 12
  oldValid : Bool
  first : Byte
  datum : Word
  nbits : BitVec 6
  prefixTab : Mem 12
  suffixTab : Mem 8
  deriving DecidableEq, Repr

/-- G4E (10_state.md R38, R39). -/
structure G4e where
  sh : Shell
  row : Word
  a0 : Word
  a1 : Word
  b1 : Word
  inrow : Bool
  acc : Byte
  free : BitVec 4
  cur : Mem 8
  ref : Mem 8
  /-- MODEL's own (log 5): the run words the current horizontal mode has still to pack, in order; empty between steps of
  every run -/
  pend : List RunWord
  deriving DecidableEq, Repr

/-- RLD (10_state.md R40). -/
structure Rld where
  sh : Shell
  x : Word
  y : Word
  deriving DecidableEq, Repr

/-- One access of the host (44_host_commands.md R290, R291, R295), or a hardware reset (70_reset_and_hazards.md R350). -/
inductive HostAction where
  /-- `WR U.r[i], v` -/
  | write (u : UnitId) (i : BitVec 4) (v : Word)
  /-- `RD U.r[i]` -/
  | read (u : UnitId) (i : BitVec 4)
  /-- `U.IN[a] <- v` -/
  | writeIn (u : UnitId) (a : Nat) (v : Byte)
  /-- read `U.IN[a]` -/
  | readIn (u : UnitId) (a : Nat)
  /-- a host write to `U.OUT[a]` -/
  | writeOut (u : UnitId) (a : Nat) (v : Byte)
  /-- read `U.OUT[a]` -/
  | readOut (u : UnitId) (a : Nat)
  /-- hardware reset of the whole block -/
  | hardReset
  deriving DecidableEq, Repr

/-- The state of the machine: the four units, and the model's own fields (INVENTORY.md, State). -/
structure State where
  /-- MODEL's own (log 3): the parameters of the instance, which no step changes (10_state.md R45) -/
  cfg : Config
  pfe : Pfe
  lzd : Lzd
  g4e : G4e
  rld : Rld
  /-- MODEL's own (log 7): the host accesses still to come, oldest first -/
  hostQ : List HostAction
  /-- MODEL's own (log 7): what the last host read returned, a byte zero-extended -/
  busData : Word
  /-- MODEL's own (log 6): the turns already granted, the next one first -/
  sched : List Agent
  /-- MODEL's own (log 6): how many stretches of turns have been taken from the free value -/
  tick : Nat
  /-- MODEL's own (log 4): how many free values host reads have taken -/
  fresh : Nat
  deriving DecidableEq, Repr

/-- Why the machine stops. Each is raised only in a state that no run from reset reaches, because START's checks and the
units' own bounds exclude it (60_exceptions.md R312); each is SAFE: the model stops where the spec gives no behaviour. The
block's own faults are not here: they are the FAULT state, a `next` (60_exceptions.md R318). -/
inductive Fault where
  /-- Raised by a unit's store to a cell its space does not have (20_memory.md R74). Safe. -/
  | noSuchCell (sp : Space) (a : Nat)
  /-- Raised by a PFE element when `PASS` is past the pass list (the precondition of 40_png_filter.md R155). Safe. -/
  | noSuchPass
  /-- Raised by a PFE element when `ROW` is not below `PH` (the same precondition), and by a G4E step when `ROW` is above
  `HEIGHT` (42_g4_encoder.md R230). Safe. -/
  | noSuchRow
  /-- Raised by a G4E run word when the configured table is shorter than 104 (10_state.md R43). Safe. -/
  | noSuchWord
  /-- Raised by an LZD element that needs the string of a code that has none (41_lzw.md R196). Safe. -/
  | noSuchString
  deriving DecidableEq, Repr

/-- Why an instruction has no meaning. -/
inductive Refusal where
  /-- Raised by `exec` for an instruction the model gives no meaning. Safe. No arm raises it. -/
  | notModelled (mnemonic : String)
  deriving DecidableEq, Repr

/-- The answer of every meaning and of the step. -/
abbrev Result := Host.Outcome State Fault Refusal

/-! ### Reset -/

/-- A unit's registers and buffers after hardware reset: registers 0 (70_reset_and_hazards.md R351), buffers unspecified
(R352), which is: nothing stored, under the content numbers given. -/
def Shell.reset (inGen outGen : Nat) : Shell where
  state := .idle
  err := .none
  flags := .clear
  ie := false
  inLen := 0
  inPos := 0
  outLen := 0
  errPos := 0
  cfg0 := 0
  cfg1 := 0
  cfg2 := 0
  inBuf := []
  outBuf := []
  inGen := inGen
  outGen := outGen

/-- PFE after reset. The working registers are unspecified (R352); DESIGN CHOICE (log 2): 0. -/
def Pfe.reset (inGen outGen : Nat) : Pfe where
  sh := Shell.reset inGen outGen
  pass := 0
  row := 0
  pw := 0
  ph := 0
  prb := 0
  curr := []
  prior := []

/-- LZD after reset; see `Pfe.reset`. -/
def Lzd.reset (inGen outGen : Nat) : Lzd where
  sh := Shell.reset inGen outGen
  codeSize := 0
  avail := 0
  old := 0
  oldValid := false
  first := 0
  datum := 0
  nbits := 0
  prefixTab := []
  suffixTab := []

/-- G4E after reset; see `Pfe.reset`. -/
def G4e.reset (inGen outGen : Nat) : G4e where
  sh := Shell.reset inGen outGen
  row := 0
  a0 := 0
  a1 := 0
  b1 := 0
  inrow := false
  acc := 0
  free := 0
  cur := []
  ref := []
  pend := []

/-- RLD after reset; see `Pfe.reset`. -/
def Rld.reset (inGen outGen : Nat) : Rld where
  sh := Shell.reset inGen outGen
  x := 0
  y := 0

/-- The machine right after hardware reset (70_reset_and_hazards.md R351, R352), with the default parameters (00_scope.md
R7), no host access waiting and no turn granted. -/
def State.reset : State where
  cfg := defaultConfig
  pfe := Pfe.reset 0 0
  lzd := Lzd.reset 0 0
  g4e := G4e.reset 0 0
  rld := Rld.reset 0 0
  hostQ := []
  busData := 0
  sched := []
  tick := 0
  fresh := 0

end Sys2Proof.Machine
end

