-- ==== Sys2Proof/Machine/Ops.lean ====
section
/-! DEFINITION. The operations shared by the units: cells and blocks of a memory (20_memory.md), the status fields, fault
entry, return from a fault and normal completion (60_exceptions.md R318, R323, R330), bounds-checked stores. -/

namespace Sys2Proof.Machine

/-! ### Memories -/

/-- A memory is in canonical form: indices strictly rising. A cell with nothing stored is not listed and has no value of
its own, so no listed cell equals it. -/
def canonical {w : Nat} : Mem w → Bool
  | [] => true
  | c :: m => m.all (fun d => decide (c.1 < d.1)) && canonical m

/-- The value stored in cell `a`, if there is one. -/
def stored {w : Nat} (m : Mem w) (a : Nat) : Option (BitVec w) :=
  match m with
  | [] => none
  | c :: m' => if c.1 = a then some c.2 else stored m' a

/-- `vs` placed from index `a` on. -/
def block {w : Nat} (a : Nat) : List (BitVec w) → Mem w
  | [] => []
  | v :: vs => (a, v) :: block (a + 1) vs

/-- `MemWrite(M, a, n, vs)` of 00_scope.md R9: the cells from `a` on take the values `vs`, every other cell keeps its own. -/
def store {w : Nat} (m : Mem w) (a : Nat) (vs : List (BitVec w)) : Mem w :=
  m.filter (fun c => decide (c.1 < a)) ++ (block a vs ++ m.filter (fun c => decide (a + vs.length ≤ c.1)))

/-- `M[a]`: the stored value, or a free value where nothing is stored (log 1). -/
def cell {w : Nat} (sp : Space) (gen : Nat) (m : Mem w) (a : Nat) : BitVec w :=
  (stored m a).getD (freeCell w sp gen a)

/-- `MemRead(M, a, n)` of 00_scope.md R9. -/
def readBlock {w : Nat} (sp : Space) (gen : Nat) (m : Mem w) (a : Nat) : Nat → List (BitVec w)
  | 0 => []
  | n + 1 => cell sp gen m a :: readBlock sp gen m (a + 1) n

/-- A register's new value. -/
def word (n : Nat) : Word := BitVec.ofNat 32 n

/-! ### Status -/

/-- `STATUS.STATE` as bits (10_state.md R23). -/
def RunState.bits : RunState → BitVec 2
  | .idle => 0
  | .busy => 1
  | .done => 2
  | .fault => 3

/-- `STATUS.ERR` as bits (60_exceptions.md R311). -/
def ErrCode.bits : ErrCode → BitVec 4
  | .none => 0
  | .cfg => 1
  | .filter => 2
  | .trunc => 3
  | .lzwCode => 4
  | .bounds => 5
  | .ovf => 6

/-- The word `STATUS` reads as (10_state.md R23). -/
def Shell.status (sh : Shell) : Word :=
  0#21 ++ BitVec.ofBool sh.flags.under ++ BitVec.ofBool sh.flags.short ++ BitVec.ofBool sh.flags.inRem ++ sh.err.bits ++
    0#2 ++ sh.state.bits

/-- The unit is BUSY. -/
def Shell.busy (sh : Shell) : Bool := sh.state == .busy

/-- The interrupt output `irq_U` (60_exceptions.md R325). -/
def Shell.irq (sh : Shell) : Bool := sh.ie && (sh.state == .done || sh.state == .fault)

/-! ### Fault entry, return, completion -/

/-- TAKING A FAULT, `raise E(p)` (60_exceptions.md R318). The entry changes nothing else; that the working registers stay so in
FAULT is the model's choice where 93_implementation_defined.md I20 allows any value (DESIGN CHOICE, log 15). -/
def Shell.raise (sh : Shell) (e : ErrCode) (p : Word) : Shell :=
  { sh with err := e, errPos := p, flags := .clear, state := .fault }

/-- NORMAL COMPLETION, `done(f)` (60_exceptions.md R330). That the unit's working registers and memories then keep what the last
step left is the model's choice where 93_implementation_defined.md I20 allows any value (DESIGN CHOICE, log 15). -/
def Shell.finish (sh : Shell) (f : Flags) : Shell := { sh with flags := f, err := .none, state := .done }

/-- RETURN FROM A FAULT and end of a job, the effect of `CMD.CLEAR` (44_host_commands.md R293, 60_exceptions.md R323). While
the unit is in FAULT the content of OUT is unspecified (R322): what the host then sees of it, `hostOut`, is what CLEAR leaves in OUT
(log 1). -/
def Shell.clear (sh : Shell) : Shell :=
  match sh.state with
  | .busy => sh
  | .fault =>
    { sh with state := .idle, err := .none, flags := .clear, errPos := 0, outBuf := [], outGen := sh.outGen + 1 }
  | .idle | .done => { sh with state := .idle, err := .none, flags := .clear, errPos := 0 }

/-- What an accepted START clears in every unit before it looks at the configuration (44_host_commands.md R292). -/
def Shell.startClear (sh : Shell) : Shell :=
  { sh with errPos := 0, err := .none, flags := .clear, inPos := 0, outLen := 0 }

/-! ### Buffers -/

/-- `U.IN[a]` (10_state.md R41). -/
def Shell.inByte (u : UnitId) (sh : Shell) (a : Nat) : Byte := cell (.input u) sh.inGen sh.inBuf a

/-- `U.OUT[a]` as the unit holds it (10_state.md R42). -/
def Shell.outByte (u : UnitId) (sh : Shell) (a : Nat) : Byte := cell (.output u) sh.outGen sh.outBuf a

/-- What the host sees in `U.OUT[a]` of a unit that is not BUSY: unspecified in FAULT (60_exceptions.md R322). -/
def Shell.hostOut (u : UnitId) (sh : Shell) (a : Nat) : Byte :=
  if sh.state = .fault then freeCell 8 (.output u) (sh.outGen + 1) a else sh.outByte u a

/-- The input bytes from `IN_POS` on, at most `n` of them and none at or past `IN_LEN` (20_memory.md R75, R78). -/
def Shell.window (u : UnitId) (sh : Shell) (n : Nat) : List Byte :=
  readBlock (.input u) sh.inGen sh.inBuf sh.inPos.toNat (min n (sh.inLen.toNat - sh.inPos.toNat))

/-- A unit's store into its OUT, which has `maxOut` cells (20_memory.md R74, R76). -/
def Shell.storeOut (u : UnitId) (maxOut : Nat) (sh : Shell) (a : Nat) (vs : List Byte) : Except Fault Shell :=
  if a + vs.length ≤ maxOut then .ok { sh with outBuf := store sh.outBuf a vs }
  else .error (.noSuchCell (.output u) (a + vs.length - 1))

/-- `OUT[0 .. n-1] <- 0`, the canvas of START (40_png_filter.md R159, 43_bmp_rle.md R262). -/
def Shell.clearCanvas (sh : Shell) (n : Nat) : Shell := { sh with outBuf := store sh.outBuf 0 (List.replicate n 0) }

/-- The cursor moves past `n` input bytes (20_memory.md R78). -/
def Shell.advance (sh : Shell) (n : Nat) : Shell := { sh with inPos := word (sh.inPos.toNat + n) }

/-! ### The units in the state -/

/-- The shell of a unit. -/
def State.shell (s : State) : UnitId → Shell
  | .pfe => s.pfe.sh
  | .lzd => s.lzd.sh
  | .g4e => s.g4e.sh
  | .rld => s.rld.sh

/-- The state with another shell in a unit. -/
def State.setShell (s : State) (u : UnitId) (sh : Shell) : State :=
  match u with
  | .pfe => { s with pfe := { s.pfe with sh := sh } }
  | .lzd => { s with lzd := { s.lzd with sh := sh } }
  | .g4e => { s with g4e := { s.g4e with sh := sh } }
  | .rld => { s with rld := { s.rld with sh := sh } }

/-- A unit's answer made the machine's: the new unit in place, or the stop. -/
def settle {α : Type} (r : Except Fault α) (put : α → State) : Result :=
  match r with
  | .ok a => .next (put a)
  | .error f => .fault f

/-- Hardware reset of the whole block (70_reset_and_hazards.md R350 to R352): every unit as after power-on, its memories
and buffers showing contents not seen before. The parameters and what lies outside the block stay. -/
def State.hardReset (s : State) : State :=
  { s with
    pfe := Pfe.reset (s.pfe.sh.inGen + 1) (s.pfe.sh.outGen + 2)
    lzd := Lzd.reset (s.lzd.sh.inGen + 1) (s.lzd.sh.outGen + 2)
    g4e := G4e.reset (s.g4e.sh.inGen + 1) (s.g4e.sh.outGen + 2)
    rld := Rld.reset (s.rld.sh.inGen + 1) (s.rld.sh.outGen + 2) }

end Sys2Proof.Machine
end

