-- ==== Sys2Proof/Machine/Flags.lean ====
section
/-! DEFINITION. The flags written at normal completion (10_state.md R23, R47; 60_exceptions.md R330). -/

namespace Sys2Proof.Machine

/-- `IN_REM`: input bytes were left over (10_state.md R23). -/
def Shell.leftOver (sh : Shell) : Bool := decide (sh.inPos.toNat < sh.inLen.toNat)

/-- The flags of PFE, G4E and RLD: `{IN_REM} if IN_POS < IN_LEN` (40_png_filter.md R155, 42_g4_encoder.md R237,
43_bmp_rle.md R267); `SHORT` and `UNDER` are always 0 there (R23). -/
def Shell.endFlags (sh : Shell) : Flags := ⟨sh.leftOver, false, false⟩

/-- The flags of LZD (41_lzw.md R200). `OUT_MAX` is `CFG1` (10_state.md R31). -/
def Shell.lzdFlags (sh : Shell) (short : Bool) : Flags :=
  ⟨sh.leftOver, short, decide (sh.outLen.toNat < sh.cfg1.toNat)⟩

end Sys2Proof.Machine
end

