-- ==== Sys2Proof/Machine/Operands.lean ====
section
/-! DEFINITION. The operand forms: configuration fields (10_state.md R30 to R33), the geometry of PNG passes
(40_png_filter.md R141 to R143, R152, R153), the pixels of RLE commands (30_encoding.md R106 to R108), the words of a run
(R114). -/

namespace Sys2Proof.Machine

/-! ### PFE -/

/-- `WIDTH` (10_state.md R30). -/
def Pfe.width (p : Pfe) : Nat := p.sh.cfg0.toNat

/-- `HEIGHT` (R30). -/
def Pfe.height (p : Pfe) : Nat := p.sh.cfg1.toNat

/-- `FMT.BITDEPTH` (R30). -/
def Pfe.depth (p : Pfe) : Nat := (p.sh.cfg2.extractLsb' 0 5).toNat

/-- `FMT.COLORTYPE` (R30). -/
def Pfe.colorType (p : Pfe) : Nat := (p.sh.cfg2.extractLsb' 8 3).toNat

/-- `FMT.INTERLACE` (R30). -/
def Pfe.interlaced (p : Pfe) : Bool := p.sh.cfg2.getLsbD 16

/-- The channels `CH(T)` of a colour type; 0 for a number that is none (40_png_filter.md R141). -/
def channels (t : Nat) : Nat :=
  if t = 0 then 1 else if t = 2 then 3 else if t = 3 then 1 else if t = 4 then 2 else if t = 6 then 4 else 0

/-- The legal depths of a colour type (R141). -/
def legalDepths (t : Nat) : List Nat :=
  if t = 0 then [1, 2, 4, 8, 16] else if t = 2 then [8, 16] else if t = 3 then [1, 2, 4, 8]
  else if t = 4 then [8, 16] else if t = 6 then [8, 16] else []

/-- `PIXBITS` (R142). -/
def Pfe.pixBits (p : Pfe) : Nat := channels p.colorType * p.depth

/-- `BPP` (R142). -/
def Pfe.bpp (p : Pfe) : Nat := max 1 (p.pixBits / 8)

/-- `ROWBYTES` (R143). -/
def Pfe.rowBytes (p : Pfe) : Nat := ceilDiv (p.width * p.pixBits) 8

/-- A pass tuple (xOffset, yOffset, xStep, yStep) (R152). -/
structure PassGeom where
  xo : Nat
  yo : Nat
  xs : Nat
  ys : Nat
  deriving DecidableEq, Repr

/-- The table `ADAM7` (R152). -/
def adam7 : List PassGeom :=
  [⟨0, 0, 8, 8⟩, ⟨4, 0, 8, 8⟩, ⟨0, 4, 4, 8⟩, ⟨2, 0, 4, 4⟩, ⟨0, 2, 2, 4⟩, ⟨1, 0, 2, 2⟩, ⟨0, 1, 1, 2⟩]

/-- The pass list: the seven passes, or the whole image as one (R152). -/
def Pfe.passes (p : Pfe) : List PassGeom := if p.interlaced then adam7 else [⟨0, 0, 1, 1⟩]

/-- How many of the positions `o, o + st, o + 2 st, …` lie below `n`: `PW` and `PH` of R153. -/
def stepsBelow (n o st : Nat) : Nat := if o < n then ceilDiv (n - o) st else 0

/-- `PW` of a pass (R153). -/
def Pfe.passWidth (p : Pfe) (g : PassGeom) : Nat := stepsBelow p.width g.xo g.xs

/-- `PH` of a pass (R153). -/
def Pfe.passHeight (p : Pfe) (g : PassGeom) : Nat := stepsBelow p.height g.yo g.ys

/-- `PRB` of a pass (R153). -/
def Pfe.passBytes (p : Pfe) (g : PassGeom) : Nat := ceilDiv (p.passWidth g * p.pixBits) 8

/-- A pass that has scanlines (R153). -/
def Pfe.passFull (p : Pfe) (g : PassGeom) : Bool := p.passWidth g != 0 && p.passHeight g != 0

/-- The number of the first pass of a list that has scanlines, counting from `k`; the number after the list if none has. -/
def Pfe.firstFull (p : Pfe) (k : Nat) : List PassGeom → Nat
  | [] => k
  | g :: gs => if p.passFull g then k else p.firstFull (k + 1) gs

/-- The least non-empty pass after pass `q`, or `NP` (R155). -/
def Pfe.nextPass (p : Pfe) (q : Nat) : Nat := p.firstFull (q + 1) (p.passes.drop (q + 1))

/-! ### LZD -/

/-- `LZW_CFG.DEPTH` (10_state.md R31). -/
def Lzd.depth (l : Lzd) : Nat := (l.sh.cfg0.extractLsb' 0 4).toNat

/-- `LZW_CFG.VARIANT`: the TIFF variant (R31). -/
def Lzd.tiff (l : Lzd) : Bool := l.sh.cfg0.getLsbD 8

/-- `OUT_MAX` (R31). -/
def Lzd.outMax (l : Lzd) : Nat := l.sh.cfg1.toNat

/-- What the registers say about the next code (30_encoding.md R111). -/
def Lzd.cx (l : Lzd) : LzwCx := ⟨l.depth, l.tiff, l.codeSize.toNat, l.avail.toNat, l.oldValid⟩

/-! ### G4E -/

/-- `WIDTH` (10_state.md R32). -/
def G4e.width (g : G4e) : Nat := g.sh.cfg0.toNat

/-- `HEIGHT` (R32). -/
def G4e.height (g : G4e) : Nat := g.sh.cfg1.toNat

/-- `RB = ceil(W / 8)` (42_g4_encoder.md R220). -/
def G4e.rowBytes (g : G4e) : Nat := ceilDiv g.width 8

/-- The opposite colour. -/
def otherColour : Colour → Colour
  | .white => .black
  | .black => .white

/-- The words of the rest of a run: `fuel` bounds the 2560 words taken first. -/
def runWordsFrom (c : Colour) : Nat → Nat → List RunWord
  | 0, _ => []
  | fuel + 1, span =>
    if 2624 ≤ span then ⟨c, 103⟩ :: runWordsFrom c fuel (span - 2560)
    else (if 64 ≤ span then [⟨c, Fin.ofNat 104 (63 + span / 64)⟩] else []) ++ [⟨c, Fin.ofNat 104 (span % 64)⟩]

/-- The run words of a run of `span` pixels, in the order `putspan` sends them (30_encoding.md R114, 42_g4_encoder.md
R234). -/
def runWords (c : Colour) (span : Nat) : List RunWord := runWordsFrom c (span / 2560 + 1) span

/-- The word of a run in the instance's tables (10_state.md R43). -/
def runCode (cfg : Config) (w : RunWord) : Option CodeWord :=
  match w.colour with
  | .white => cfg.whiteTab[w.index.val]?
  | .black => cfg.blackTab[w.index.val]?

/-! ### RLD -/

/-- `WIDTH` (10_state.md R33). -/
def Rld.width (r : Rld) : Nat := r.sh.cfg0.toNat

/-- `HEIGHT` (R33). -/
def Rld.height (r : Rld) : Nat := r.sh.cfg1.toNat

/-- `RLE_CFG.MODE4` (R33). -/
def Rld.mode4 (r : Rld) : Bool := r.sh.cfg2.getLsbD 0

/-- `RLE_CFG.FLIP` (R33). -/
def Rld.flip (r : Rld) : Bool := r.sh.cfg2.getLsbD 1

/-- `n` pixels taking two values in turn, the first one first (30_encoding.md R108). -/
def alternating : Nat → Byte → Byte → List Byte
  | 0, _, _ => []
  | n + 1, a, b => a :: alternating n b a

/-- The two pixels of a byte, high nibble first (30_encoding.md R107). -/
def twoPixels (b : Byte) : List Byte := [(hiNibble b).setWidth 8, (loNibble b).setWidth 8]

/-- The pixels of an RLE4 absolute run of `n` pixels (30_encoding.md R107). -/
def abs4Pixels (n : Nat) (d : List Byte) : List Byte := (d.flatMap twoPixels).take n

/-! ### Registers -/

/-- The defined bits of a configuration register, 0 where the unit does not define it (10_state.md R29 to R33). -/
def cfgMask (u : UnitId) (i : BitVec 4) : Word :=
  match u with
  | .pfe => if i = 8 then 0xFFFFFFFF else if i = 9 then 0xFFFFFFFF else if i = 10 then 0x0001071F else 0
  | .lzd => if i = 8 then 0x0000010F else if i = 9 then 0xFFFFFFFF else 0
  | .g4e => if i = 8 then 0xFFFFFFFF else if i = 9 then 0xFFFFFFFF else 0
  | .rld => if i = 8 then 0xFFFFFFFF else if i = 9 then 0xFFFFFFFF else if i = 10 then 0x00000003 else 0

end Sys2Proof.Machine
end

