-- ==== Sys2Proof/Machine/G4.lean ====
section
/-! DEFINITION. G4E, the CCITT Group 4 encoder (42_g4_encoder.md): pixels and spans, changing elements, the bit packer, the
row opening, the choice of the mode, START's check and initialisation, and the meanings of the mode words. The run words are in
Machine/G4Runs.lean. -/

namespace Sys2Proof.Machine

/-! ### Pixels and spans -/

/-- A pixel of a line whose bytes are given by `at` (R223): white (`false`) beyond the width. -/
def pixel (byteAt : Nat → Byte) (width x : Nat) : Bool :=
  if x < width then (byteAt (x / 8)).getLsbD (7 - x % 8) else false

/-- `PIXEL(CUR, x)`. -/
def G4e.curPixel (g : G4e) (x : Nat) : Bool := pixel (cell .cur g.sh.inGen g.cur) g.width x

/-- `PIXEL(REF, x)`. -/
def G4e.refPixel (g : G4e) (x : Nat) : Bool := pixel (cell .ref g.sh.inGen g.ref) g.width x

/-- The length of the run of pixels of colour `k` from `x` on, among the next `n` (R224). -/
def spanFrom (pix : Nat → Bool) (k : Bool) (x : Nat) : Nat → Nat
  | 0 => 0
  | n + 1 => if pix x = k then 1 + spanFrom pix k (x + 1) n else 0

/-- `find0span(L, bs, be)` (R224). -/
def find0span (pix : Nat → Bool) (bs be : Nat) : Nat := spanFrom pix false bs (be - bs)

/-- `find1span(L, bs, be)` (R224). -/
def find1span (pix : Nat → Bool) (bs be : Nat) : Nat := spanFrom pix true bs (be - bs)

/-- `finddiff(L, bs, be, k)` (R224). -/
def finddiff (pix : Nat → Bool) (bs be : Nat) (k : Bool) : Nat :=
  bs + if k then find1span pix bs be else find0span pix bs be

/-- `finddiff2(L, bs, be, k)` (R224). -/
def finddiff2 (pix : Nat → Bool) (bs be : Nat) (k : Bool) : Nat := if bs < be then finddiff pix bs be k else be

/-- The number of leading bits equal to `k` among the `n` low bits of a byte, from bit `n - 1` down. -/
def leadingRun (k : Bool) (v : Byte) : Nat → Nat
  | 0 => 0
  | n + 1 => if v.getLsbD n = k then 1 + leadingRun k v n else 0

/-- The table `ZERORUNS` (R225). -/
def zeroRuns (v : Byte) : Nat := leadingRun false v 8

/-- The table `ONERUNS` (R225). -/
def oneRuns (v : Byte) : Nat := leadingRun true v 8

/-- The byte-wise span finder of R225 over whole bytes from byte `j` on: table entries added until one is not 8. -/
def tableSpan (runs : Byte → Nat) (byteAt : Nat → Byte) (j : Nat) : Nat → Nat
  | 0 => 0
  | n + 1 => if runs (byteAt j) = 8 then 8 + tableSpan runs byteAt (j + 1) n else runs (byteAt j)

/-- The span from column `bs` to `be` found with a table (R225): the partial first byte shifted and clipped, then whole
bytes, the result clipped at `be`. -/
def fastSpan (runs : Byte → Nat) (byteAt : Nat → Byte) (bs be : Nat) : Nat :=
  let inFirst := 8 - bs % 8
  let first := min inFirst (runs (byteAt (bs / 8) <<< (bs % 8)))
  min (be - bs) (if first = inFirst then inFirst + tableSpan runs byteAt (bs / 8 + 1) (ceilDiv be 8 - (bs / 8 + 1)) else first)

/-! ### Changing elements -/

/-- `b2` (R227). -/
def G4e.b2 (g : G4e) : Nat := finddiff2 g.refPixel g.b1.toNat g.width (g.refPixel g.b1.toNat)

/-- `a2` (R228). -/
def G4e.a2 (g : G4e) : Nat := finddiff2 g.curPixel g.a1.toNat g.width (g.curPixel g.a1.toNat)

/-- `A0`, `A1`, `B1` at a row's start (R226). -/
def G4e.rowStart (g : G4e) : G4e :=
  { g with
    a0 := 0
    a1 := word (if g.curPixel 0 then 0 else finddiff g.curPixel 0 g.width false)
    b1 := word (if g.refPixel 0 then 0 else finddiff g.refPixel 0 g.width false) }

/-- `A1` and `B1` after a mode, while `A0 < W` (R229). -/
def G4e.advance (g : G4e) : G4e :=
  let k := g.curPixel g.a0.toNat
  let t := finddiff g.refPixel g.a0.toNat g.width (!k)
  { g with
    a1 := word (finddiff g.curPixel g.a0.toNat g.width k)
    b1 := word (finddiff g.refPixel t g.width k) }

/-- Row end (R236). -/
def G4e.endRow (g : G4e) : G4e :=
  { g with
    ref := store g.ref 0 (readBlock .cur g.sh.inGen g.cur 0 g.rowBytes)
    row := word (g.row.toNat + 1)
    inrow := false }

/-- What R230 does after a mode: row end or advance. -/
def G4e.afterMode (g : G4e) : G4e := if g.width ≤ g.a0.toNat then g.endRow else g.advance

/-! ### The bit packer -/

/-- `emit_byte(v)` (R235, R239): `error` is the unit after the fault `E_OVF`. -/
def G4e.emitByte (cfg : Config) (v : Byte) (g : G4e) : Except G4e G4e :=
  let n := g.sh.outLen.toNat
  if cfg.maxOut ≤ n then .error { g with sh := g.sh.raise .ovf g.sh.inPos }
  else .ok { g with sh := { g.sh with outBuf := store g.sh.outBuf n [v], outLen := word (n + 1) } }

/-- `emit_byte(ACC); ACC <- 0; FREE <- 8`. -/
def G4e.emitAcc (cfg : Config) (g : G4e) : Except G4e G4e :=
  match g.emitByte cfg g.acc with
  | .error e => .error e
  | .ok g1 => .ok { g1 with acc := 0, free := 8 }

/-- The loop of `putbits` and what follows it (R235). Each turn of the loop takes at least one bit once `FREE` is not 0, so
`len + 1` turns are enough. -/
def G4e.pack (cfg : Config) : Nat → Nat → Nat → G4e → Except G4e G4e
  | 0, _, _, g => .ok g
  | fuel + 1, len, code, g =>
    let free := g.free.toNat
    if free < len then
      let left := len - free
      match ({ g with acc := g.acc ||| BitVec.ofNat 8 (code >>> left) } : G4e).emitAcc cfg with
      | .error e => .error e
      | .ok g1 => G4e.pack cfg fuel left (code % 2 ^ left) g1
    else
      let g1 : G4e :=
        { g with acc := g.acc ||| BitVec.ofNat 8 (code <<< (free - len)), free := BitVec.ofNat 4 (free - len) }
      if free = len then g1.emitAcc cfg else .ok g1

/-- `putbits((len, code))` (R235). -/
def G4e.putbits (cfg : Config) (w : CodeWord) (g : G4e) : Except G4e G4e := g.pack cfg (w.len + 1) w.len w.code

/-- The unit after a word was packed: faulted where it overflowed, else as `k` goes on. -/
def G4e.thenDo (r : Except G4e G4e) (k : G4e → G4e) : G4e :=
  match r with
  | .error g => g
  | .ok g => k g

/-! ### Elements -/

/-- `G4.P` (R231). -/
def G4e.passMode (cfg : Config) (g : G4e) : G4e :=
  G4e.thenDo (g.putbits cfg cfg.modeTab.pass) fun g1 => { g1 with a0 := word g.b2 }.afterMode

/-- `G4.V(d)` with its word (R232). -/
def G4e.vertical (cfg : Config) (w : CodeWord) (g : G4e) : G4e :=
  G4e.thenDo (g.putbits cfg w) fun g1 => { g1 with a0 := g.a1 }.afterMode

/-- The colour of the first run of a horizontal mode (R233). -/
def G4e.firstColour (g : G4e) : Colour :=
  if g.a0.toNat + g.a1.toNat = 0 ∨ g.curPixel g.a0.toNat = false then .white else .black

/-- The run words of a horizontal mode (R233). -/
def G4e.modeRuns (g : G4e) : List RunWord :=
  runWords g.firstColour (g.a1.toNat - g.a0.toNat) ++ runWords (otherColour g.firstColour) (g.a2 - g.a1.toNat)

/-- `G4.H` (R233). Its run words are elements of their own (30_encoding.md R119, R120): they are left in `pend`, and the same
step of the unit packs them (log 5). -/
def G4e.horizontal (cfg : Config) (g : G4e) : G4e :=
  G4e.thenDo (g.putbits cfg cfg.modeTab.horiz) fun g1 =>
    { g1 with pend := g1.pend ++ g.modeRuns, a0 := word g.a2 }.afterMode

/-- The last byte, where it is partly filled, and the end of the run (R237). -/
def G4e.flush (cfg : Config) (g : G4e) : G4e :=
  G4e.thenDo (if g.free = 8 then .ok g else g.emitAcc cfg) fun g1 => { g1 with sh := g1.sh.finish g1.sh.endFlags }

/-- `G4.EOFB` (R237): two `EOL` words, the flush, the end. -/
def G4e.endOfBlock (cfg : Config) (g : G4e) : G4e :=
  G4e.thenDo (g.putbits cfg cfg.modeTab.eol) fun g1 =>
    G4e.thenDo (g1.putbits cfg cfg.modeTab.eol) fun g2 => g2.flush cfg

/-! ### The unit's own steps -/

/-- The cells `CUR` and `REF` have (20_memory.md R74). -/
def rowCells (cfg : Config) : Nat := ceilDiv cfg.maxW 8

/-- The row-open step (R230, R238). -/
def G4e.openRow (cfg : Config) (g : G4e) : Except Fault G4e :=
  if g.sh.inLen.toNat < g.sh.inPos.toNat + g.rowBytes then .ok { g with sh := g.sh.raise .trunc g.sh.inPos }
  else if rowCells cfg < g.rowBytes then .error (.noSuchCell .cur (g.rowBytes - 1))
  else
    .ok ({ g with
      cur := store g.cur 0 (readBlock (.input .g4e) g.sh.inGen g.sh.inBuf g.sh.inPos.toNat g.rowBytes)
      sh := g.sh.advance g.rowBytes
      inrow := true } : G4e).rowStart

/-- `d = b1 - a1` (R232), a signed number. -/
def G4e.diff (g : G4e) : Int := (g.b1.toNat : Int) - g.a1.toNat

/-- The vertical element of a difference, `none` outside `-3 .. 3` (R232). -/
def verticalOf (d : Int) : Option Instr :=
  if d = -3 then some .g4Vr3 else if d = -2 then some .g4Vr2 else if d = -1 then some .g4Vr1
  else if d = 0 then some .g4V0 else if d = 1 then some .g4Vl1 else if d = 2 then some .g4Vl2
  else if d = 3 then some .g4Vl3 else none

/-- The mode of a mode step (R230): pass before vertical before horizontal. -/
def G4e.mode (g : G4e) : Instr :=
  if g.b2 < g.a1.toNat then .g4P else (verticalOf g.diff).getD .g4H

/-! ### START -/

/-- The configuration is legal (60_exceptions.md R312; R221). -/
def G4e.legal (cfg : Config) (g : G4e) : Bool :=
  decide (1 ≤ g.width) && decide (g.width ≤ cfg.maxW) && decide (g.height ≤ cfg.maxH) &&
    decide (g.sh.inLen.toNat ≤ cfg.maxIn) && decide (g.rowBytes * g.height ≤ cfg.maxIn)

/-- START initialisation (R222). -/
def G4e.init (g : G4e) : G4e :=
  { g with
    sh := { g.sh with inPos := 0, outLen := 0, state := .busy }
    row := 0
    inrow := false
    acc := 0
    free := 8
    pend := []
    ref := store g.ref 0 (List.replicate g.rowBytes 0) }

/-- `CMD.START` of G4E (44_host_commands.md R292). -/
def G4e.start (cfg : Config) (g : G4e) : G4e :=
  if g.sh.state = .idle then
    let g1 := { g with sh := g.sh.startClear }
    if g1.legal cfg then g1.init else { g1 with sh := g1.sh.raise .cfg 0 }
  else g

/-! ### Meanings -/

/-- `G4.P` (R231). -/
def execG4P (s : State) : Result := .next { s with g4e := s.g4e.passMode s.cfg }

/-- `G4.H` (R233). -/
def execG4H (s : State) : Result := .next { s with g4e := s.g4e.horizontal s.cfg }

/-- `G4.VR3`, `d = -3` (R232). -/
def execG4Vr3 (s : State) : Result := .next { s with g4e := s.g4e.vertical s.cfg s.cfg.modeTab.vr3 }

/-- `G4.VR2`, `d = -2` (R232). -/
def execG4Vr2 (s : State) : Result := .next { s with g4e := s.g4e.vertical s.cfg s.cfg.modeTab.vr2 }

/-- `G4.VR1`, `d = -1` (R232). -/
def execG4Vr1 (s : State) : Result := .next { s with g4e := s.g4e.vertical s.cfg s.cfg.modeTab.vr1 }

/-- `G4.V0`, `d = 0` (R232). -/
def execG4V0 (s : State) : Result := .next { s with g4e := s.g4e.vertical s.cfg s.cfg.modeTab.v0 }

/-- `G4.VL1`, `d = +1` (R232). -/
def execG4Vl1 (s : State) : Result := .next { s with g4e := s.g4e.vertical s.cfg s.cfg.modeTab.vl1 }

/-- `G4.VL2`, `d = +2` (R232). -/
def execG4Vl2 (s : State) : Result := .next { s with g4e := s.g4e.vertical s.cfg s.cfg.modeTab.vl2 }

/-- `G4.VL3`, `d = +3` (R232). -/
def execG4Vl3 (s : State) : Result := .next { s with g4e := s.g4e.vertical s.cfg s.cfg.modeTab.vl3 }

/-- `G4.EOL`: the word `G4.EOFB` sends twice, with the flush and the end it belongs to (R237, 30_encoding.md R115). -/
def execG4Eol (s : State) : Result := .next { s with g4e := s.g4e.endOfBlock s.cfg }

end Sys2Proof.Machine
end

