-- ==== Sys2Proof/Machine/Lzd.lean ====
section
/-! DEFINITION. LZD, the LZW decompressor (41_lzw.md): code fetch, strings, output append, table growth, START's check and
initialisation, and the meanings of the six code classes. -/

namespace Sys2Proof.Machine

/-! ### Fetch -/

/-- One turn of the loading loop (R183, R184): a byte of `IN` joins the bit accumulator. -/
def Lzd.load (l : Lzd) : Lzd :=
  let b := (l.sh.inByte .lzd l.sh.inPos.toNat).setWidth 32
  { l with
    datum := if l.tiff then l.datum <<< 8 ||| b else l.datum ||| b <<< l.nbits.toNat
    nbits := l.nbits + 8
    sh := l.sh.advance 1 }

/-- The loading loop, at most `fuel` bytes: `none` where the input runs out (R185), with what was loaded before. Two bytes are
always enough, since `CODE_SIZE` has 4 bits. -/
def Lzd.fill : Nat → Lzd → Lzd × Bool
  | 0, l => (l, true)
  | fuel + 1, l =>
    if l.nbits.toNat < l.codeSize.toNat then
      if l.sh.inLen.toNat ≤ l.sh.inPos.toNat then (l, false) else Lzd.fill fuel l.load
    else (l, true)

/-- The code is taken out of the accumulator: the least significant bits first in the GIF variant (R183), the most
significant first in the TIFF variant (R184). -/
def Lzd.take (l : Lzd) : BitVec 12 × Lzd :=
  let left := l.nbits.toNat - l.codeSize.toNat
  let d := l.datum.toNat
  if l.tiff then
    (BitVec.ofNat 12 (d >>> left % 2 ^ l.codeSize.toNat),
      { l with datum := word (d % 2 ^ left), nbits := BitVec.ofNat 6 left })
  else
    (BitVec.ofNat 12 (d % 2 ^ l.codeSize.toNat),
      { l with datum := word (d >>> l.codeSize.toNat), nbits := BitVec.ofNat 6 left })

/-! ### Strings, output, table -/

/-- `PREFIX[k]` (10_state.md R37). -/
def Lzd.prefixAt (l : Lzd) (k : Nat) : BitVec 12 := cell .prefixTab l.sh.inGen l.prefixTab k

/-- `SUFFIX[k]` (R37). -/
def Lzd.suffixAt (l : Lzd) (k : Nat) : Byte := cell .suffixTab l.sh.inGen l.suffixTab k

/-- `expand(k)` (R196) along a chain of at most `fuel` codes; `none` where the string is not defined. -/
def Lzd.expandIn (l : Lzd) : Nat → Nat → Option (List Byte)
  | 0, _ => none
  | fuel + 1, k =>
    if k < l.cx.clear then some [BitVec.ofNat 8 k]
    else if l.cx.firstFree ≤ k ∧ k < l.cx.avail then
      (Lzd.expandIn l fuel (l.prefixAt k).toNat).map fun str => str ++ [l.suffixAt k]
    else none

/-- `expand(k)` (R196); a chain goes through each of the 4096 entries at most once. -/
def Lzd.expand (l : Lzd) (k : Nat) : Option (List Byte) := l.expandIn 4096 k

/-- `append str` (R197): bytes beyond `OUT_MAX` are dropped. -/
def Lzd.append (cfg : Config) (str : List Byte) (l : Lzd) : Except Fault Lzd :=
  let kept := str.take (l.outMax - l.sh.outLen.toNat)
  match l.sh.storeOut .lzd cfg.maxOut l.sh.outLen.toNat kept with
  | .ok sh => .ok { l with sh := { sh with outLen := word (sh.outLen.toNat + kept.length) } }
  | .error f => .error f

/-- The table size at which the code size grows (R193): one entry early in the TIFF variant. -/
def Lzd.growAt (l : Lzd) : Nat := if l.tiff then 2 ^ l.codeSize.toNat - 1 else 2 ^ l.codeSize.toNat

/-- `add entry (o, f)` (R193, R194). -/
def Lzd.addEntry (o : BitVec 12) (f : Byte) (l : Lzd) : Lzd :=
  if l.avail.toNat < 4096 then
    { l with
      prefixTab := store l.prefixTab l.avail.toNat [o]
      suffixTab := store l.suffixTab l.avail.toNat [f]
      avail := BitVec.ofNat 13 (l.avail.toNat + 1)
      codeSize :=
        if l.avail.toNat + 1 = l.growAt ∧ l.codeSize.toNat < 12 then BitVec.ofNat 4 (l.codeSize.toNat + 1)
        else l.codeSize }
  else l

/-- What `LZW.REF` and `LZW.KWK` do with the string of their code: append it, take its first byte, add the entry of the
previous code and that byte, remember the code (R191, R192). A string has at least one byte. -/
def Lzd.emit (cfg : Config) (c : BitVec 12) (str : List Byte) (l : Lzd) : Except Fault Lzd :=
  match str with
  | [] => .error .noSuchString
  | f :: _ =>
    match l.append cfg str with
    | .error e => .error e
    | .ok l1 => .ok { Lzd.addEntry l1.old f { l1 with first := f } with old := c }

/-! ### Elements -/

/-- The state `LZW.CLEAR` leaves (R188), and START too (R182). -/
def Lzd.clearTable (l : Lzd) : Lzd :=
  { l with codeSize := BitVec.ofNat 4 (l.depth + 1), avail := BitVec.ofNat 13 l.cx.firstFree, oldValid := false }

/-- The run ends (R200). `DATUM` and `NBITS` keep the bits no code used, and the other working registers their values: the
model's choice where R185 and 10_state.md R48 (a) have the bits discarded and 93_implementation_defined.md I20 allows any value
(DESIGN CHOICE, log 15). Nothing reads them before START clears them. -/
def Lzd.finish (short : Bool) (l : Lzd) : Lzd := { l with sh := l.sh.finish (l.sh.lzdFlags short) }

/-- `LZW.LIT c` (R190). -/
def Lzd.lit (cfg : Config) (c : BitVec 12) (l : Lzd) : Except Fault Lzd :=
  match l.append cfg [c.setWidth 8] with
  | .error e => .error e
  | .ok l1 => .ok { l1 with first := c.setWidth 8, old := c, oldValid := true }

/-- `LZW.REF c` (R191). -/
def Lzd.ref (cfg : Config) (c : BitVec 12) (l : Lzd) : Except Fault Lzd :=
  match l.expand c.toNat with
  | none => .error .noSuchString
  | some str => l.emit cfg c str

/-- `LZW.KWK` (R192): the string of the previous code and its first byte; the entry it creates is its own code. -/
def Lzd.kwk (cfg : Config) (l : Lzd) : Except Fault Lzd :=
  match l.expand l.old.toNat with
  | none => .error .noSuchString
  | some str => l.emit cfg (BitVec.ofNat 12 l.avail.toNat) (str ++ [l.first])

/-! ### START -/

/-- The configuration is legal (60_exceptions.md R312; 41_lzw.md R181, R199). -/
def Lzd.legal (cfg : Config) (l : Lzd) : Bool :=
  ((!l.tiff && decide (2 ≤ l.depth) && decide (l.depth ≤ 8)) || (l.tiff && decide (l.depth = 8) && cfg.hasTiffLzw)) &&
    decide (l.sh.inLen.toNat ≤ cfg.maxIn) && decide (l.outMax ≤ cfg.maxOut)

/-- START initialisation (R182). -/
def Lzd.init (l : Lzd) : Lzd :=
  { l.clearTable with datum := 0, nbits := 0, sh := { l.sh with inPos := 0, outLen := 0, state := .busy } }

/-- `CMD.START` of LZD (44_host_commands.md R292). -/
def Lzd.start (cfg : Config) (l : Lzd) : Lzd :=
  if l.sh.state = .idle then
    let l1 := { l with sh := l.sh.startClear }
    if l1.legal cfg then l1.init else { l1 with sh := l1.sh.raise .cfg 0 }
  else l

/-! ### Meanings -/

/-- `LZW.CLEAR` (R188). -/
def execLzwClear (s : State) : Result := .next { s with lzd := s.lzd.clearTable }

/-- `LZW.EOI` (R189). -/
def execLzwEoi (s : State) : Result := .next { s with lzd := s.lzd.finish false }

/-- `LZW.LIT` (R190). -/
def execLzwLit (c : BitVec 12) (s : State) : Result := settle (s.lzd.lit s.cfg c) fun l => { s with lzd := l }

/-- `LZW.REF` (R191). -/
def execLzwRef (c : BitVec 12) (s : State) : Result := settle (s.lzd.ref s.cfg c) fun l => { s with lzd := l }

/-- `LZW.KWK` (R192). -/
def execLzwKwk (s : State) : Result := settle (s.lzd.kwk s.cfg) fun l => { s with lzd := l }

/-- The illegal class (R195): the fault `E_LZW_CODE`, with `IN_POS` after the fetch. The code itself does not matter. -/
def execLzwIllegal (_c : BitVec 12) (s : State) : Result :=
  .next { s with lzd := { s.lzd with sh := s.lzd.sh.raise .lzwCode s.lzd.sh.inPos } }

end Sys2Proof.Machine
end

