-- ==== Sys2Proof/Machine/Pfe.lean ====
section
/-! DEFINITION. PFE, the PNG scanline filter engine (40_png_filter.md): the predictors, the scanline step, the placement of
pixels, START's check and initialisation, and the meanings of the five filter types. -/

namespace Sys2Proof.Machine

/-! ### Predictors -/

/-- `PaethPredictor(a, b, c)` (R149): exact integers, ties resolved a, then b, then c. -/
def paeth (a b c : Nat) : Nat :=
  let p : Int := (a : Int) + b - c
  let pa := (p - a).natAbs
  let pb := (p - b).natAbs
  let pc := (p - c).natAbs
  if pa ≤ pb ∧ pa ≤ pc then a else if pb ≤ pc then b else c

/-- `pred(i)` of a filter from the three neighbours (R145 to R149). -/
def predict (f : Filter) (a b c : Nat) : Nat :=
  match f with
  | .none => 0
  | .sub => a
  | .up => b
  | .avg => (a + b) / 2
  | .paeth => paeth a b c

/-- `CURR[i]` (10_state.md R35). -/
def Pfe.currAt (p : Pfe) (k : Nat) : Byte := cell .curr p.sh.inGen p.curr k

/-- `PRIOR[i]` (R35). -/
def Pfe.priorAt (p : Pfe) (k : Nat) : Byte := cell .prior p.sh.inGen p.prior k

/-- `a(i)` (R144): the reconstructed byte to the left, 0 where there is none. -/
def Pfe.leftOf (p : Pfe) (k : Nat) : Nat := if p.bpp ≤ k then (p.currAt (k - p.bpp)).toNat else 0

/-- `b(i)` (R144): the byte above. -/
def Pfe.above (p : Pfe) (k : Nat) : Nat := (p.priorAt k).toNat

/-- `c(i)` (R144): the byte above left, 0 where there is none. -/
def Pfe.aboveLeft (p : Pfe) (k : Nat) : Nat := if p.bpp ≤ k then (p.priorAt (k - p.bpp)).toNat else 0

/-- `(raw + pred) mod 256` (R150). -/
def addByte (raw : Byte) (pred : Nat) : Byte := BitVec.ofNat 8 (raw.toNat + pred)

/-- The reconstruction loop of R155 from byte `k` on, in increasing `k`. -/
def Pfe.reconstruct (f : Filter) (k : Nat) (raw : List Byte) (p : Pfe) : Pfe :=
  match raw with
  | [] => p
  | r :: rs =>
    Pfe.reconstruct f (k + 1) rs
      { p with curr := store p.curr k [addByte r (predict f (p.leftOf k) (p.above k) (p.aboveLeft k))] }

/-! ### Placement -/

/-- `CURR[0 .. n-1]`. -/
def Pfe.line (p : Pfe) (n : Nat) : List Byte := readBlock .curr p.sh.inGen p.curr 0 n

/-- A masked store into `OUT`: the bits of `mask` of cell `at` become those of `val`. -/
structure Poke where
  cellAt : Nat
  mask : Byte
  val : Byte
  deriving DecidableEq, Repr

/-- The pokes of pixel `k` of the current scanline, at column `x` of image row `y` (R157). -/
def Pfe.pixelPokes (p : Pfe) (x y k : Nat) : List Poke :=
  if 8 ≤ p.pixBits then
    (List.range p.bpp).map fun j => ⟨y * p.rowBytes + x * p.bpp + j, 0xFF, p.currAt (k * p.bpp + j)⟩
  else
    let sb := k * p.pixBits
    let ones := 2 ^ p.pixBits - 1
    let v := (p.currAt (sb / 8)).toNat >>> (8 - p.pixBits - sb % 8) &&& ones
    let db := x * p.pixBits
    let shift := 8 - p.pixBits - db % 8
    [⟨y * p.rowBytes + db / 8, BitVec.ofNat 8 (ones <<< shift), BitVec.ofNat 8 (v <<< shift)⟩]

/-- The pokes of the current scanline in a pass, pixel by pixel (R157). -/
def Pfe.scatter (p : Pfe) (g : PassGeom) : List Poke :=
  (List.range p.pw.toNat).flatMap fun k => p.pixelPokes (g.xo + k * g.xs) (g.yo + p.row.toNat * g.ys) k

/-- `OUT[t] <- (OUT[t] & ~mask) | val`. -/
def Shell.poke (maxOut : Nat) (sh : Shell) (k : Poke) : Except Fault Shell :=
  sh.storeOut .pfe maxOut k.cellAt [(sh.outByte .pfe k.cellAt &&& ~~~k.mask) ||| k.val]

/-- Pokes in order. -/
def Shell.pokes (maxOut : Nat) : List Poke → Shell → Except Fault Shell
  | [], sh => .ok sh
  | k :: ks, sh =>
    match sh.poke maxOut k with
    | .ok sh' => Shell.pokes maxOut ks sh'
    | .error f => .error f

/-- The scanline is placed in `OUT` (R156, R157). -/
def Pfe.place (cfg : Config) (g : PassGeom) (p : Pfe) : Except Fault Shell :=
  if p.interlaced then p.sh.pokes cfg.maxOut (p.scatter g)
  else p.sh.storeOut .pfe cfg.maxOut (p.row.toNat * p.rowBytes) (p.line p.rowBytes)

/-! ### The step -/

/-- The cells `CURR` and `PRIOR` have (20_memory.md R74). -/
def lineCells (cfg : Config) : Nat := ceilDiv (cfg.maxW * 64) 8

/-- Pass `q` becomes the current one (R154, R155, R159): its dimensions, row 0, a zero prior row. -/
def Pfe.enterPass (p : Pfe) (q : Nat) (g : PassGeom) : Pfe :=
  { p with
    pass := BitVec.ofNat 4 q
    pw := word (p.passWidth g)
    ph := word (p.passHeight g)
    prb := word (p.passBytes g)
    row := 0
    prior := store p.prior 0 (List.replicate (p.passBytes g) 0) }

/-- After the last scanline of a pass: the next non-empty pass, or the end of the run (R155, R158). -/
def Pfe.endPass (p : Pfe) : Pfe :=
  let q := p.nextPass p.pass.toNat
  match p.passes[q]? with
  | some g => p.enterPass q g
  | none => { p with pass := BitVec.ofNat 4 q, sh := p.sh.finish p.sh.endFlags }

/-- What R155 does once the scanline is placed: the prior row, the cursor, the row, the pass. -/
def Pfe.endScanline (p : Pfe) : Pfe :=
  let p1 : Pfe :=
    { p with
      prior := store p.prior 0 (p.line p.prb.toNat)
      sh := p.sh.advance (1 + p.prb.toNat)
      row := word (p.row.toNat + 1) }
  if p1.row = p1.ph then p1.endPass else p1

/-- The scanline step of all five elements (R155), its input checks done by the fetch (`Pfe.fetch`). -/
def Pfe.scanline (cfg : Config) (f : Filter) (raw : List Byte) (p : Pfe) : Except Fault Pfe :=
  if lineCells cfg < raw.length then .error (.noSuchCell .curr (raw.length - 1))
  else if p.ph.toNat ≤ p.row.toNat then .error .noSuchRow
  else
    match p.passes[p.pass.toNat]? with
    | none => .error .noSuchPass
    | some g =>
      let p1 := p.reconstruct f 0 raw
      match p1.place cfg g with
      | .error e => .error e
      | .ok sh => .ok { p1 with sh := sh }.endScanline

/-- The fetch of the next record with its checks (R155, R151, 60_exceptions.md R313, R314, R320). -/
def Pfe.fetch (p : Pfe) : Except ErrCode Instr :=
  match decodeScan p.prb.toNat (p.sh.window .pfe (1 + p.prb.toNat)) with
  | .ok (i, _) => .ok i
  | .error .badFilter => .error .filter
  | .error _ => .error .trunc

/-! ### START -/

/-- The configuration is legal (60_exceptions.md R312; 40_png_filter.md R141, R143). -/
def Pfe.legal (cfg : Config) (p : Pfe) : Bool :=
  decide (1 ≤ p.width) && decide (p.width ≤ cfg.maxW) && decide (1 ≤ p.height) && decide (p.height ≤ cfg.maxH) &&
    (legalDepths p.colorType).contains p.depth && decide (p.sh.inLen.toNat ≤ cfg.maxIn) &&
    decide (p.rowBytes * p.height ≤ cfg.maxOut)

/-- START initialisation (40_png_filter.md R159). -/
def Pfe.init (p : Pfe) : Pfe :=
  let size := p.rowBytes * p.height
  let p1 := { p with sh := { p.sh.clearCanvas size with outLen := word size, inPos := 0, state := .busy } }
  p1.enterPass 0 (p1.passes.headD ⟨0, 0, 1, 1⟩)

/-- `CMD.START` of PFE (44_host_commands.md R292). -/
def Pfe.start (cfg : Config) (p : Pfe) : Pfe :=
  if p.sh.state = .idle then
    let p1 := { p with sh := p.sh.startClear }
    if p1.legal cfg then p1.init else { p1 with sh := p1.sh.raise .cfg 0 }
  else p

/-! ### Meanings -/

/-- A PFE element in the machine. -/
def runScanline (f : Filter) (raw : List Byte) (s : State) : Result :=
  settle (s.pfe.scanline s.cfg f raw) fun p => { s with pfe := p }

/-- `FT.NONE` (R145). -/
def execFtNone (raw : List Byte) (s : State) : Result := runScanline .none raw s

/-- `FT.SUB` (R146). -/
def execFtSub (raw : List Byte) (s : State) : Result := runScanline .sub raw s

/-- `FT.UP` (R147). -/
def execFtUp (raw : List Byte) (s : State) : Result := runScanline .up raw s

/-- `FT.AVG` (R148). -/
def execFtAvg (raw : List Byte) (s : State) : Result := runScanline .avg raw s

/-- `FT.PAETH` (R149). -/
def execFtPaeth (raw : List Byte) (s : State) : Result := runScanline .paeth raw s

end Sys2Proof.Machine
end

