-- ==== Sys2Proof/Machine/Rld.lean ====
section
/-! DEFINITION. RLD, the BMP RLE decompressor (43_bmp_rle.md): writing pixels, the commands, START's check and
initialisation, and the meanings of the seven commands. -/

namespace Sys2Proof.Machine

/-- The canvas row of stream row `Y` (20_memory.md R80, 43_bmp_rle.md R272). -/
def Rld.canvasRow (r : Rld) : Nat := if r.flip then r.height - 1 - r.y.toNat else r.y.toNat

/-- The cell of `OUT` the next pixel goes to (20_memory.md R80). -/
def Rld.pixelCell (r : Rld) : Nat := r.canvasRow * r.width + r.x.toNat

/-- The bounds check of R272 for `n` pixels. -/
def Rld.inside (r : Rld) (n : Nat) : Bool := decide (r.y.toNat < r.height) && decide (r.x.toNat + n ≤ r.width)

/-- A command of `len` bytes that writes the pixels `px` (R264, R265, R269, R270, R272): `E_BOUNDS` and nothing written
where they do not fit, else the pixels, the column and the cursor. -/
def Rld.putRun (cfg : Config) (px : List Byte) (len : Nat) (r : Rld) : Except Fault Rld :=
  if r.inside px.length then
    match r.sh.storeOut .rld cfg.maxOut r.pixelCell px with
    | .error f => .error f
    | .ok sh => .ok { r with sh := sh.advance len, x := word (r.x.toNat + px.length) }
  else .ok { r with sh := r.sh.raise .bounds r.sh.inPos }

/-- `RLE.EOL` (R266). -/
def Rld.eol (r : Rld) : Rld := { r with x := 0, y := word (r.y.toNat + 1), sh := r.sh.advance 2 }

/-- `RLE.EOB` (R267). -/
def Rld.eob (r : Rld) : Rld :=
  let sh := r.sh.advance 2
  { r with sh := sh.finish sh.endFlags }

/-- `RLE.DELTA dx, dy` (R268). -/
def Rld.delta (dx dy : Byte) (r : Rld) : Rld :=
  { r with x := word (r.x.toNat + dx.toNat), y := word (r.y.toNat + dy.toNat), sh := r.sh.advance 4 }

/-- The length of an absolute run with `nb` data bytes (30_encoding.md R106, R107; 43_bmp_rle.md R271). -/
def absLength (nb : Nat) : Nat := 2 + nb + padBytes nb

/-- The fetch of the next command with its checks (R263, R268 to R270, 60_exceptions.md R314, R320). The longest command
has 258 bytes. -/
def Rld.fetch (r : Rld) : Except ErrCode Instr :=
  match decodeRle r.mode4 (r.sh.window .rld 258) with
  | .ok (i, _) => .ok i
  | .error _ => .error .trunc

/-- The configuration is legal (60_exceptions.md R312; 43_bmp_rle.md R261). -/
def Rld.legal (cfg : Config) (r : Rld) : Bool :=
  decide (1 ≤ r.width) && decide (r.width ≤ cfg.maxW) && decide (1 ≤ r.height) && decide (r.height ≤ cfg.maxH) &&
    decide (r.sh.inLen.toNat ≤ cfg.maxIn) && decide (r.width * r.height ≤ cfg.maxOut)

/-- START initialisation (R262). -/
def Rld.init (r : Rld) : Rld :=
  let size := r.width * r.height
  { r with sh := { r.sh.clearCanvas size with outLen := word size, inPos := 0, state := .busy }, x := 0, y := 0 }

/-- `CMD.START` of RLD (44_host_commands.md R292). -/
def Rld.start (cfg : Config) (r : Rld) : Rld :=
  if r.sh.state = .idle then
    let r1 := { r with sh := r.sh.startClear }
    if r1.legal cfg then r1.init else { r1 with sh := r1.sh.raise .cfg 0 }
  else r

/-! ### Meanings -/

/-- `RLE8.RUN` (R264). -/
def execRle8Run (n v : Byte) (s : State) : Result :=
  settle (s.rld.putRun s.cfg (List.replicate n.toNat v) 2) fun r => { s with rld := r }

/-- `RLE4.RUN` (R265). -/
def execRle4Run (n : Byte) (h l : BitVec 4) (s : State) : Result :=
  settle (s.rld.putRun s.cfg (alternating n.toNat (h.setWidth 8) (l.setWidth 8)) 2) fun r => { s with rld := r }

/-- `RLE.EOL` (R266). -/
def execRleEol (s : State) : Result := .next { s with rld := s.rld.eol }

/-- `RLE.EOB` (R267). -/
def execRleEob (s : State) : Result := .next { s with rld := s.rld.eob }

/-- `RLE.DELTA` (R268). -/
def execRleDelta (dx dy : Byte) (s : State) : Result := .next { s with rld := s.rld.delta dx dy }

/-- `RLE8.ABS` (R269). -/
def execRle8Abs (n : Byte) (d : List Byte) (s : State) : Result :=
  settle (s.rld.putRun s.cfg (d.take n.toNat) (absLength (absDataBytes false n.toNat))) fun r => { s with rld := r }

/-- `RLE4.ABS` (R270). -/
def execRle4Abs (n : Byte) (d : List Byte) (s : State) : Result :=
  settle (s.rld.putRun s.cfg (abs4Pixels n.toNat d) (absLength (absDataBytes true n.toNat))) fun r => { s with rld := r }

end Sys2Proof.Machine
end

