-- ==== Sys2Proof/Machine/Command.lean ====
section
/-! DEFINITION. The host's side (44_host_commands.md): the meanings of the two commands, register reads and writes, buffer
accesses. -/

namespace Sys2Proof.Machine

/-! ### Meanings -/

/-- `CMD.START` to a unit (R292). -/
def execCmdStart (u : UnitId) (s : State) : Result :=
  match u with
  | .pfe => .next { s with pfe := s.pfe.start s.cfg }
  | .lzd => .next { s with lzd := s.lzd.start s.cfg }
  | .g4e => .next { s with g4e := s.g4e.start s.cfg }
  | .rld => .next { s with rld := s.rld.start s.cfg }

/-- `CMD.CLEAR` to a unit (R293). -/
def execCmdClear (u : UnitId) (s : State) : Result := .next (s.setShell u (s.shell u).clear)

/-! ### Registers -/

/-- A register's value where it does not depend on progress (R290; 10_state.md R21 to R33). -/
def Shell.readReg (u : UnitId) (sh : Shell) (i : BitVec 4) : Word :=
  if i = 1 then sh.status
  else if i = 2 then (BitVec.ofBool sh.ie).setWidth 32
  else if i = 3 then sh.inLen
  else if i = 4 then sh.inPos
  else if i = 5 then sh.outLen
  else if i = 6 then sh.errPos
  else if i = 8 then sh.cfg0 &&& cfgMask u i
  else if i = 9 then sh.cfg1 &&& cfgMask u i
  else if i = 10 then sh.cfg2 &&& cfgMask u i
  else 0

/-- The bound of the unspecified value a read of a progress register returns while BUSY (R290, 93_implementation_defined.md
I9): `IN_LEN` for `IN_POS`, `MAX_OUT` for `OUT_LEN`; no register else is unspecified. -/
def progressBound (cfg : Config) (sh : Shell) (i : BitVec 4) : Option Nat :=
  if sh.busy then
    if i = 4 then some sh.inLen.toNat else if i = 5 then some cfg.maxOut else none
  else none

/-- `RD U.r[i]` (R290): the value on the bus; nothing else of the block changes. -/
def State.readReg (s : State) (u : UnitId) (i : BitVec 4) : State :=
  match progressBound s.cfg (s.shell u) i with
  | some n => { s with busData := word (freeProgress s.fresh % (n + 1)), fresh := s.fresh + 1 }
  | none => { s with busData := (s.shell u).readReg u i }

/-- A write to a register other than `CTRL` (R291). -/
def Shell.writeReg (u : UnitId) (sh : Shell) (i : BitVec 4) (v : Word) : Shell :=
  if i = 2 then { sh with ie := v.getLsbD 0 }
  else if sh.busy then sh
  else if i = 3 then { sh with inLen := v }
  else if i = 8 then { sh with cfg0 := v &&& cfgMask u i }
  else if i = 9 then { sh with cfg1 := v &&& cfgMask u i }
  else if i = 10 then { sh with cfg2 := v &&& cfgMask u i }
  else sh

/-! ### Buffers -/

/-- A host write to `IN[a]` (R295). -/
def Shell.writeIn (maxIn : Nat) (sh : Shell) (a : Nat) (v : Byte) : Shell :=
  if sh.busy then sh else if a < maxIn then { sh with inBuf := store sh.inBuf a [v] } else sh

/-- A byte on the bus. -/
def State.putByte (s : State) (b : Byte) : State := { s with busData := b.setWidth 32 }

/-- An unspecified byte on the bus. -/
def State.putFreeByte (s : State) : State :=
  { s with busData := (freeByte s.fresh).setWidth 32, fresh := s.fresh + 1 }

/-- A host read of `IN[a]` (R295). -/
def State.readIn (s : State) (u : UnitId) (a : Nat) : State :=
  if (s.shell u).busy = false ∧ a < s.cfg.maxIn then s.putByte ((s.shell u).inByte u a) else s.putFreeByte

/-- A host read of `OUT[a]` (R295, 60_exceptions.md R322). -/
def State.readOut (s : State) (u : UnitId) (a : Nat) : State :=
  if (s.shell u).busy = false ∧ a < s.cfg.maxOut then s.putByte ((s.shell u).hostOut u a) else s.putFreeByte

/-- A host access that is no write to `CTRL` (a write to `CTRL` is a command, `hostStep` in Machine/Turns.lean), or a hardware
reset. -/
def State.access (s : State) (a : HostAction) : State :=
  match a with
  | .write u i v => s.setShell u ((s.shell u).writeReg u i v)
  | .read u i => s.readReg u i
  | .writeIn u k v => s.setShell u ((s.shell u).writeIn s.cfg.maxIn k v)
  | .readIn u k => s.readIn u k
  | .writeOut _ _ _ => s
  | .readOut u k => s.readOut u k
  | .hardReset => s.hardReset

end Sys2Proof.Machine
end

