-- ==== Sys2Proof/Machine/G4Runs.lean ====
section
/-! DEFINITION. The 208 run words of G4E (42_g4_encoder.md R241, R242): each packs its own word of the instance's tables by
`putbits` (R235). -/

namespace Sys2Proof.Machine

/-- A run word is packed (R234, R235); `E_OVF` where the output is full (R239). -/
def G4e.packRun (cfg : Config) (w : RunWord) (g : G4e) : Except Fault G4e :=
  match runCode cfg w with
  | none => .error .noSuchWord
  | some c => .ok (G4e.thenDo (g.putbits cfg c) id)

/-- A run word in the machine. -/
def emitRun (w : RunWord) (s : State) : Result := settle (s.g4e.packRun s.cfg w) fun g => { s with g4e := g }

/-- `G4.WT0`: the terminating word for a white run of 0 (R241). -/
def execG4Wt0 (s : State) : Result := emitRun ⟨.white, 0⟩ s

/-- `G4.WT1`: the terminating word for a white run of 1 (R241). -/
def execG4Wt1 (s : State) : Result := emitRun ⟨.white, 1⟩ s

/-- `G4.WT2`: the terminating word for a white run of 2 (R241). -/
def execG4Wt2 (s : State) : Result := emitRun ⟨.white, 2⟩ s

/-- `G4.WT3`: the terminating word for a white run of 3 (R241). -/
def execG4Wt3 (s : State) : Result := emitRun ⟨.white, 3⟩ s

/-- `G4.WT4`: the terminating word for a white run of 4 (R241). -/
def execG4Wt4 (s : State) : Result := emitRun ⟨.white, 4⟩ s

/-- `G4.WT5`: the terminating word for a white run of 5 (R241). -/
def execG4Wt5 (s : State) : Result := emitRun ⟨.white, 5⟩ s

/-- `G4.WT6`: the terminating word for a white run of 6 (R241). -/
def execG4Wt6 (s : State) : Result := emitRun ⟨.white, 6⟩ s

/-- `G4.WT7`: the terminating word for a white run of 7 (R241). -/
def execG4Wt7 (s : State) : Result := emitRun ⟨.white, 7⟩ s

/-- `G4.WT8`: the terminating word for a white run of 8 (R241). -/
def execG4Wt8 (s : State) : Result := emitRun ⟨.white, 8⟩ s

/-- `G4.WT9`: the terminating word for a white run of 9 (R241). -/
def execG4Wt9 (s : State) : Result := emitRun ⟨.white, 9⟩ s

/-- `G4.WT10`: the terminating word for a white run of 10 (R241). -/
def execG4Wt10 (s : State) : Result := emitRun ⟨.white, 10⟩ s

/-- `G4.WT11`: the terminating word for a white run of 11 (R241). -/
def execG4Wt11 (s : State) : Result := emitRun ⟨.white, 11⟩ s

/-- `G4.WT12`: the terminating word for a white run of 12 (R241). -/
def execG4Wt12 (s : State) : Result := emitRun ⟨.white, 12⟩ s

/-- `G4.WT13`: the terminating word for a white run of 13 (R241). -/
def execG4Wt13 (s : State) : Result := emitRun ⟨.white, 13⟩ s

/-- `G4.WT14`: the terminating word for a white run of 14 (R241). -/
def execG4Wt14 (s : State) : Result := emitRun ⟨.white, 14⟩ s

/-- `G4.WT15`: the terminating word for a white run of 15 (R241). -/
def execG4Wt15 (s : State) : Result := emitRun ⟨.white, 15⟩ s

/-- `G4.WT16`: the terminating word for a white run of 16 (R241). -/
def execG4Wt16 (s : State) : Result := emitRun ⟨.white, 16⟩ s

/-- `G4.WT17`: the terminating word for a white run of 17 (R241). -/
def execG4Wt17 (s : State) : Result := emitRun ⟨.white, 17⟩ s

/-- `G4.WT18`: the terminating word for a white run of 18 (R241). -/
def execG4Wt18 (s : State) : Result := emitRun ⟨.white, 18⟩ s

/-- `G4.WT19`: the terminating word for a white run of 19 (R241). -/
def execG4Wt19 (s : State) : Result := emitRun ⟨.white, 19⟩ s

/-- `G4.WT20`: the terminating word for a white run of 20 (R241). -/
def execG4Wt20 (s : State) : Result := emitRun ⟨.white, 20⟩ s

/-- `G4.WT21`: the terminating word for a white run of 21 (R241). -/
def execG4Wt21 (s : State) : Result := emitRun ⟨.white, 21⟩ s

/-- `G4.WT22`: the terminating word for a white run of 22 (R241). -/
def execG4Wt22 (s : State) : Result := emitRun ⟨.white, 22⟩ s

/-- `G4.WT23`: the terminating word for a white run of 23 (R241). -/
def execG4Wt23 (s : State) : Result := emitRun ⟨.white, 23⟩ s

/-- `G4.WT24`: the terminating word for a white run of 24 (R241). -/
def execG4Wt24 (s : State) : Result := emitRun ⟨.white, 24⟩ s

/-- `G4.WT25`: the terminating word for a white run of 25 (R241). -/
def execG4Wt25 (s : State) : Result := emitRun ⟨.white, 25⟩ s

/-- `G4.WT26`: the terminating word for a white run of 26 (R241). -/
def execG4Wt26 (s : State) : Result := emitRun ⟨.white, 26⟩ s

/-- `G4.WT27`: the terminating word for a white run of 27 (R241). -/
def execG4Wt27 (s : State) : Result := emitRun ⟨.white, 27⟩ s

/-- `G4.WT28`: the terminating word for a white run of 28 (R241). -/
def execG4Wt28 (s : State) : Result := emitRun ⟨.white, 28⟩ s

/-- `G4.WT29`: the terminating word for a white run of 29 (R241). -/
def execG4Wt29 (s : State) : Result := emitRun ⟨.white, 29⟩ s

/-- `G4.WT30`: the terminating word for a white run of 30 (R241). -/
def execG4Wt30 (s : State) : Result := emitRun ⟨.white, 30⟩ s

/-- `G4.WT31`: the terminating word for a white run of 31 (R241). -/
def execG4Wt31 (s : State) : Result := emitRun ⟨.white, 31⟩ s

/-- `G4.WT32`: the terminating word for a white run of 32 (R241). -/
def execG4Wt32 (s : State) : Result := emitRun ⟨.white, 32⟩ s

/-- `G4.WT33`: the terminating word for a white run of 33 (R241). -/
def execG4Wt33 (s : State) : Result := emitRun ⟨.white, 33⟩ s

/-- `G4.WT34`: the terminating word for a white run of 34 (R241). -/
def execG4Wt34 (s : State) : Result := emitRun ⟨.white, 34⟩ s

/-- `G4.WT35`: the terminating word for a white run of 35 (R241). -/
def execG4Wt35 (s : State) : Result := emitRun ⟨.white, 35⟩ s

/-- `G4.WT36`: the terminating word for a white run of 36 (R241). -/
def execG4Wt36 (s : State) : Result := emitRun ⟨.white, 36⟩ s

/-- `G4.WT37`: the terminating word for a white run of 37 (R241). -/
def execG4Wt37 (s : State) : Result := emitRun ⟨.white, 37⟩ s

/-- `G4.WT38`: the terminating word for a white run of 38 (R241). -/
def execG4Wt38 (s : State) : Result := emitRun ⟨.white, 38⟩ s

/-- `G4.WT39`: the terminating word for a white run of 39 (R241). -/
def execG4Wt39 (s : State) : Result := emitRun ⟨.white, 39⟩ s

/-- `G4.WT40`: the terminating word for a white run of 40 (R241). -/
def execG4Wt40 (s : State) : Result := emitRun ⟨.white, 40⟩ s

/-- `G4.WT41`: the terminating word for a white run of 41 (R241). -/
def execG4Wt41 (s : State) : Result := emitRun ⟨.white, 41⟩ s

/-- `G4.WT42`: the terminating word for a white run of 42 (R241). -/
def execG4Wt42 (s : State) : Result := emitRun ⟨.white, 42⟩ s

/-- `G4.WT43`: the terminating word for a white run of 43 (R241). -/
def execG4Wt43 (s : State) : Result := emitRun ⟨.white, 43⟩ s

/-- `G4.WT44`: the terminating word for a white run of 44 (R241). -/
def execG4Wt44 (s : State) : Result := emitRun ⟨.white, 44⟩ s

/-- `G4.WT45`: the terminating word for a white run of 45 (R241). -/
def execG4Wt45 (s : State) : Result := emitRun ⟨.white, 45⟩ s

/-- `G4.WT46`: the terminating word for a white run of 46 (R241). -/
def execG4Wt46 (s : State) : Result := emitRun ⟨.white, 46⟩ s

/-- `G4.WT47`: the terminating word for a white run of 47 (R241). -/
def execG4Wt47 (s : State) : Result := emitRun ⟨.white, 47⟩ s

/-- `G4.WT48`: the terminating word for a white run of 48 (R241). -/
def execG4Wt48 (s : State) : Result := emitRun ⟨.white, 48⟩ s

/-- `G4.WT49`: the terminating word for a white run of 49 (R241). -/
def execG4Wt49 (s : State) : Result := emitRun ⟨.white, 49⟩ s

/-- `G4.WT50`: the terminating word for a white run of 50 (R241). -/
def execG4Wt50 (s : State) : Result := emitRun ⟨.white, 50⟩ s

/-- `G4.WT51`: the terminating word for a white run of 51 (R241). -/
def execG4Wt51 (s : State) : Result := emitRun ⟨.white, 51⟩ s

/-- `G4.WT52`: the terminating word for a white run of 52 (R241). -/
def execG4Wt52 (s : State) : Result := emitRun ⟨.white, 52⟩ s

/-- `G4.WT53`: the terminating word for a white run of 53 (R241). -/
def execG4Wt53 (s : State) : Result := emitRun ⟨.white, 53⟩ s

/-- `G4.WT54`: the terminating word for a white run of 54 (R241). -/
def execG4Wt54 (s : State) : Result := emitRun ⟨.white, 54⟩ s

/-- `G4.WT55`: the terminating word for a white run of 55 (R241). -/
def execG4Wt55 (s : State) : Result := emitRun ⟨.white, 55⟩ s

/-- `G4.WT56`: the terminating word for a white run of 56 (R241). -/
def execG4Wt56 (s : State) : Result := emitRun ⟨.white, 56⟩ s

/-- `G4.WT57`: the terminating word for a white run of 57 (R241). -/
def execG4Wt57 (s : State) : Result := emitRun ⟨.white, 57⟩ s

/-- `G4.WT58`: the terminating word for a white run of 58 (R241). -/
def execG4Wt58 (s : State) : Result := emitRun ⟨.white, 58⟩ s

/-- `G4.WT59`: the terminating word for a white run of 59 (R241). -/
def execG4Wt59 (s : State) : Result := emitRun ⟨.white, 59⟩ s

/-- `G4.WT60`: the terminating word for a white run of 60 (R241). -/
def execG4Wt60 (s : State) : Result := emitRun ⟨.white, 60⟩ s

/-- `G4.WT61`: the terminating word for a white run of 61 (R241). -/
def execG4Wt61 (s : State) : Result := emitRun ⟨.white, 61⟩ s

/-- `G4.WT62`: the terminating word for a white run of 62 (R241). -/
def execG4Wt62 (s : State) : Result := emitRun ⟨.white, 62⟩ s

/-- `G4.WT63`: the terminating word for a white run of 63 (R241). -/
def execG4Wt63 (s : State) : Result := emitRun ⟨.white, 63⟩ s

/-- `G4.WM64`: the makeup word for a white run of 64 (R241). -/
def execG4Wm64 (s : State) : Result := emitRun ⟨.white, 64⟩ s

/-- `G4.WM128`: the makeup word for a white run of 128 (R241). -/
def execG4Wm128 (s : State) : Result := emitRun ⟨.white, 65⟩ s

/-- `G4.WM192`: the makeup word for a white run of 192 (R241). -/
def execG4Wm192 (s : State) : Result := emitRun ⟨.white, 66⟩ s

/-- `G4.WM256`: the makeup word for a white run of 256 (R241). -/
def execG4Wm256 (s : State) : Result := emitRun ⟨.white, 67⟩ s

/-- `G4.WM320`: the makeup word for a white run of 320 (R241). -/
def execG4Wm320 (s : State) : Result := emitRun ⟨.white, 68⟩ s

/-- `G4.WM384`: the makeup word for a white run of 384 (R241). -/
def execG4Wm384 (s : State) : Result := emitRun ⟨.white, 69⟩ s

/-- `G4.WM448`: the makeup word for a white run of 448 (R241). -/
def execG4Wm448 (s : State) : Result := emitRun ⟨.white, 70⟩ s

/-- `G4.WM512`: the makeup word for a white run of 512 (R241). -/
def execG4Wm512 (s : State) : Result := emitRun ⟨.white, 71⟩ s

/-- `G4.WM576`: the makeup word for a white run of 576 (R241). -/
def execG4Wm576 (s : State) : Result := emitRun ⟨.white, 72⟩ s

/-- `G4.WM640`: the makeup word for a white run of 640 (R241). -/
def execG4Wm640 (s : State) : Result := emitRun ⟨.white, 73⟩ s

/-- `G4.WM704`: the makeup word for a white run of 704 (R241). -/
def execG4Wm704 (s : State) : Result := emitRun ⟨.white, 74⟩ s

/-- `G4.WM768`: the makeup word for a white run of 768 (R241). -/
def execG4Wm768 (s : State) : Result := emitRun ⟨.white, 75⟩ s

/-- `G4.WM832`: the makeup word for a white run of 832 (R241). -/
def execG4Wm832 (s : State) : Result := emitRun ⟨.white, 76⟩ s

/-- `G4.WM896`: the makeup word for a white run of 896 (R241). -/
def execG4Wm896 (s : State) : Result := emitRun ⟨.white, 77⟩ s

/-- `G4.WM960`: the makeup word for a white run of 960 (R241). -/
def execG4Wm960 (s : State) : Result := emitRun ⟨.white, 78⟩ s

/-- `G4.WM1024`: the makeup word for a white run of 1024 (R241). -/
def execG4Wm1024 (s : State) : Result := emitRun ⟨.white, 79⟩ s

/-- `G4.WM1088`: the makeup word for a white run of 1088 (R241). -/
def execG4Wm1088 (s : State) : Result := emitRun ⟨.white, 80⟩ s

/-- `G4.WM1152`: the makeup word for a white run of 1152 (R241). -/
def execG4Wm1152 (s : State) : Result := emitRun ⟨.white, 81⟩ s

/-- `G4.WM1216`: the makeup word for a white run of 1216 (R241). -/
def execG4Wm1216 (s : State) : Result := emitRun ⟨.white, 82⟩ s

/-- `G4.WM1280`: the makeup word for a white run of 1280 (R241). -/
def execG4Wm1280 (s : State) : Result := emitRun ⟨.white, 83⟩ s

/-- `G4.WM1344`: the makeup word for a white run of 1344 (R241). -/
def execG4Wm1344 (s : State) : Result := emitRun ⟨.white, 84⟩ s

/-- `G4.WM1408`: the makeup word for a white run of 1408 (R241). -/
def execG4Wm1408 (s : State) : Result := emitRun ⟨.white, 85⟩ s

/-- `G4.WM1472`: the makeup word for a white run of 1472 (R241). -/
def execG4Wm1472 (s : State) : Result := emitRun ⟨.white, 86⟩ s

/-- `G4.WM1536`: the makeup word for a white run of 1536 (R241). -/
def execG4Wm1536 (s : State) : Result := emitRun ⟨.white, 87⟩ s

/-- `G4.WM1600`: the makeup word for a white run of 1600 (R241). -/
def execG4Wm1600 (s : State) : Result := emitRun ⟨.white, 88⟩ s

/-- `G4.WM1664`: the makeup word for a white run of 1664 (R241). -/
def execG4Wm1664 (s : State) : Result := emitRun ⟨.white, 89⟩ s

/-- `G4.WM1728`: the makeup word for a white run of 1728 (R241). -/
def execG4Wm1728 (s : State) : Result := emitRun ⟨.white, 90⟩ s

/-- `G4.WM1792`: the makeup word for a white run of 1792 (R241). -/
def execG4Wm1792 (s : State) : Result := emitRun ⟨.white, 91⟩ s

/-- `G4.WM1856`: the makeup word for a white run of 1856 (R241). -/
def execG4Wm1856 (s : State) : Result := emitRun ⟨.white, 92⟩ s

/-- `G4.WM1920`: the makeup word for a white run of 1920 (R241). -/
def execG4Wm1920 (s : State) : Result := emitRun ⟨.white, 93⟩ s

/-- `G4.WM1984`: the makeup word for a white run of 1984 (R241). -/
def execG4Wm1984 (s : State) : Result := emitRun ⟨.white, 94⟩ s

/-- `G4.WM2048`: the makeup word for a white run of 2048 (R241). -/
def execG4Wm2048 (s : State) : Result := emitRun ⟨.white, 95⟩ s

/-- `G4.WM2112`: the makeup word for a white run of 2112 (R241). -/
def execG4Wm2112 (s : State) : Result := emitRun ⟨.white, 96⟩ s

/-- `G4.WM2176`: the makeup word for a white run of 2176 (R241). -/
def execG4Wm2176 (s : State) : Result := emitRun ⟨.white, 97⟩ s

/-- `G4.WM2240`: the makeup word for a white run of 2240 (R241). -/
def execG4Wm2240 (s : State) : Result := emitRun ⟨.white, 98⟩ s

/-- `G4.WM2304`: the makeup word for a white run of 2304 (R241). -/
def execG4Wm2304 (s : State) : Result := emitRun ⟨.white, 99⟩ s

/-- `G4.WM2368`: the makeup word for a white run of 2368 (R241). -/
def execG4Wm2368 (s : State) : Result := emitRun ⟨.white, 100⟩ s

/-- `G4.WM2432`: the makeup word for a white run of 2432 (R241). -/
def execG4Wm2432 (s : State) : Result := emitRun ⟨.white, 101⟩ s

/-- `G4.WM2496`: the makeup word for a white run of 2496 (R241). -/
def execG4Wm2496 (s : State) : Result := emitRun ⟨.white, 102⟩ s

/-- `G4.WM2560`: the makeup word for a white run of 2560 (R241). -/
def execG4Wm2560 (s : State) : Result := emitRun ⟨.white, 103⟩ s

/-- `G4.BT0`: the terminating word for a black run of 0 (R242). -/
def execG4Bt0 (s : State) : Result := emitRun ⟨.black, 0⟩ s

/-- `G4.BT1`: the terminating word for a black run of 1 (R242). -/
def execG4Bt1 (s : State) : Result := emitRun ⟨.black, 1⟩ s

/-- `G4.BT2`: the terminating word for a black run of 2 (R242). -/
def execG4Bt2 (s : State) : Result := emitRun ⟨.black, 2⟩ s

/-- `G4.BT3`: the terminating word for a black run of 3 (R242). -/
def execG4Bt3 (s : State) : Result := emitRun ⟨.black, 3⟩ s

/-- `G4.BT4`: the terminating word for a black run of 4 (R242). -/
def execG4Bt4 (s : State) : Result := emitRun ⟨.black, 4⟩ s

/-- `G4.BT5`: the terminating word for a black run of 5 (R242). -/
def execG4Bt5 (s : State) : Result := emitRun ⟨.black, 5⟩ s

/-- `G4.BT6`: the terminating word for a black run of 6 (R242). -/
def execG4Bt6 (s : State) : Result := emitRun ⟨.black, 6⟩ s

/-- `G4.BT7`: the terminating word for a black run of 7 (R242). -/
def execG4Bt7 (s : State) : Result := emitRun ⟨.black, 7⟩ s

/-- `G4.BT8`: the terminating word for a black run of 8 (R242). -/
def execG4Bt8 (s : State) : Result := emitRun ⟨.black, 8⟩ s

/-- `G4.BT9`: the terminating word for a black run of 9 (R242). -/
def execG4Bt9 (s : State) : Result := emitRun ⟨.black, 9⟩ s

/-- `G4.BT10`: the terminating word for a black run of 10 (R242). -/
def execG4Bt10 (s : State) : Result := emitRun ⟨.black, 10⟩ s

/-- `G4.BT11`: the terminating word for a black run of 11 (R242). -/
def execG4Bt11 (s : State) : Result := emitRun ⟨.black, 11⟩ s

/-- `G4.BT12`: the terminating word for a black run of 12 (R242). -/
def execG4Bt12 (s : State) : Result := emitRun ⟨.black, 12⟩ s

/-- `G4.BT13`: the terminating word for a black run of 13 (R242). -/
def execG4Bt13 (s : State) : Result := emitRun ⟨.black, 13⟩ s

/-- `G4.BT14`: the terminating word for a black run of 14 (R242). -/
def execG4Bt14 (s : State) : Result := emitRun ⟨.black, 14⟩ s

/-- `G4.BT15`: the terminating word for a black run of 15 (R242). -/
def execG4Bt15 (s : State) : Result := emitRun ⟨.black, 15⟩ s

/-- `G4.BT16`: the terminating word for a black run of 16 (R242). -/
def execG4Bt16 (s : State) : Result := emitRun ⟨.black, 16⟩ s

/-- `G4.BT17`: the terminating word for a black run of 17 (R242). -/
def execG4Bt17 (s : State) : Result := emitRun ⟨.black, 17⟩ s

/-- `G4.BT18`: the terminating word for a black run of 18 (R242). -/
def execG4Bt18 (s : State) : Result := emitRun ⟨.black, 18⟩ s

/-- `G4.BT19`: the terminating word for a black run of 19 (R242). -/
def execG4Bt19 (s : State) : Result := emitRun ⟨.black, 19⟩ s

/-- `G4.BT20`: the terminating word for a black run of 20 (R242). -/
def execG4Bt20 (s : State) : Result := emitRun ⟨.black, 20⟩ s

/-- `G4.BT21`: the terminating word for a black run of 21 (R242). -/
def execG4Bt21 (s : State) : Result := emitRun ⟨.black, 21⟩ s

/-- `G4.BT22`: the terminating word for a black run of 22 (R242). -/
def execG4Bt22 (s : State) : Result := emitRun ⟨.black, 22⟩ s

/-- `G4.BT23`: the terminating word for a black run of 23 (R242). -/
def execG4Bt23 (s : State) : Result := emitRun ⟨.black, 23⟩ s

/-- `G4.BT24`: the terminating word for a black run of 24 (R242). -/
def execG4Bt24 (s : State) : Result := emitRun ⟨.black, 24⟩ s

/-- `G4.BT25`: the terminating word for a black run of 25 (R242). -/
def execG4Bt25 (s : State) : Result := emitRun ⟨.black, 25⟩ s

/-- `G4.BT26`: the terminating word for a black run of 26 (R242). -/
def execG4Bt26 (s : State) : Result := emitRun ⟨.black, 26⟩ s

/-- `G4.BT27`: the terminating word for a black run of 27 (R242). -/
def execG4Bt27 (s : State) : Result := emitRun ⟨.black, 27⟩ s

/-- `G4.BT28`: the terminating word for a black run of 28 (R242). -/
def execG4Bt28 (s : State) : Result := emitRun ⟨.black, 28⟩ s

/-- `G4.BT29`: the terminating word for a black run of 29 (R242). -/
def execG4Bt29 (s : State) : Result := emitRun ⟨.black, 29⟩ s

/-- `G4.BT30`: the terminating word for a black run of 30 (R242). -/
def execG4Bt30 (s : State) : Result := emitRun ⟨.black, 30⟩ s

/-- `G4.BT31`: the terminating word for a black run of 31 (R242). -/
def execG4Bt31 (s : State) : Result := emitRun ⟨.black, 31⟩ s

/-- `G4.BT32`: the terminating word for a black run of 32 (R242). -/
def execG4Bt32 (s : State) : Result := emitRun ⟨.black, 32⟩ s

/-- `G4.BT33`: the terminating word for a black run of 33 (R242). -/
def execG4Bt33 (s : State) : Result := emitRun ⟨.black, 33⟩ s

/-- `G4.BT34`: the terminating word for a black run of 34 (R242). -/
def execG4Bt34 (s : State) : Result := emitRun ⟨.black, 34⟩ s

/-- `G4.BT35`: the terminating word for a black run of 35 (R242). -/
def execG4Bt35 (s : State) : Result := emitRun ⟨.black, 35⟩ s

/-- `G4.BT36`: the terminating word for a black run of 36 (R242). -/
def execG4Bt36 (s : State) : Result := emitRun ⟨.black, 36⟩ s

/-- `G4.BT37`: the terminating word for a black run of 37 (R242). -/
def execG4Bt37 (s : State) : Result := emitRun ⟨.black, 37⟩ s

/-- `G4.BT38`: the terminating word for a black run of 38 (R242). -/
def execG4Bt38 (s : State) : Result := emitRun ⟨.black, 38⟩ s

/-- `G4.BT39`: the terminating word for a black run of 39 (R242). -/
def execG4Bt39 (s : State) : Result := emitRun ⟨.black, 39⟩ s

/-- `G4.BT40`: the terminating word for a black run of 40 (R242). -/
def execG4Bt40 (s : State) : Result := emitRun ⟨.black, 40⟩ s

/-- `G4.BT41`: the terminating word for a black run of 41 (R242). -/
def execG4Bt41 (s : State) : Result := emitRun ⟨.black, 41⟩ s

/-- `G4.BT42`: the terminating word for a black run of 42 (R242). -/
def execG4Bt42 (s : State) : Result := emitRun ⟨.black, 42⟩ s

/-- `G4.BT43`: the terminating word for a black run of 43 (R242). -/
def execG4Bt43 (s : State) : Result := emitRun ⟨.black, 43⟩ s

/-- `G4.BT44`: the terminating word for a black run of 44 (R242). -/
def execG4Bt44 (s : State) : Result := emitRun ⟨.black, 44⟩ s

/-- `G4.BT45`: the terminating word for a black run of 45 (R242). -/
def execG4Bt45 (s : State) : Result := emitRun ⟨.black, 45⟩ s

/-- `G4.BT46`: the terminating word for a black run of 46 (R242). -/
def execG4Bt46 (s : State) : Result := emitRun ⟨.black, 46⟩ s

/-- `G4.BT47`: the terminating word for a black run of 47 (R242). -/
def execG4Bt47 (s : State) : Result := emitRun ⟨.black, 47⟩ s

/-- `G4.BT48`: the terminating word for a black run of 48 (R242). -/
def execG4Bt48 (s : State) : Result := emitRun ⟨.black, 48⟩ s

/-- `G4.BT49`: the terminating word for a black run of 49 (R242). -/
def execG4Bt49 (s : State) : Result := emitRun ⟨.black, 49⟩ s

/-- `G4.BT50`: the terminating word for a black run of 50 (R242). -/
def execG4Bt50 (s : State) : Result := emitRun ⟨.black, 50⟩ s

/-- `G4.BT51`: the terminating word for a black run of 51 (R242). -/
def execG4Bt51 (s : State) : Result := emitRun ⟨.black, 51⟩ s

/-- `G4.BT52`: the terminating word for a black run of 52 (R242). -/
def execG4Bt52 (s : State) : Result := emitRun ⟨.black, 52⟩ s

/-- `G4.BT53`: the terminating word for a black run of 53 (R242). -/
def execG4Bt53 (s : State) : Result := emitRun ⟨.black, 53⟩ s

/-- `G4.BT54`: the terminating word for a black run of 54 (R242). -/
def execG4Bt54 (s : State) : Result := emitRun ⟨.black, 54⟩ s

/-- `G4.BT55`: the terminating word for a black run of 55 (R242). -/
def execG4Bt55 (s : State) : Result := emitRun ⟨.black, 55⟩ s

/-- `G4.BT56`: the terminating word for a black run of 56 (R242). -/
def execG4Bt56 (s : State) : Result := emitRun ⟨.black, 56⟩ s

/-- `G4.BT57`: the terminating word for a black run of 57 (R242). -/
def execG4Bt57 (s : State) : Result := emitRun ⟨.black, 57⟩ s

/-- `G4.BT58`: the terminating word for a black run of 58 (R242). -/
def execG4Bt58 (s : State) : Result := emitRun ⟨.black, 58⟩ s

/-- `G4.BT59`: the terminating word for a black run of 59 (R242). -/
def execG4Bt59 (s : State) : Result := emitRun ⟨.black, 59⟩ s

/-- `G4.BT60`: the terminating word for a black run of 60 (R242). -/
def execG4Bt60 (s : State) : Result := emitRun ⟨.black, 60⟩ s

/-- `G4.BT61`: the terminating word for a black run of 61 (R242). -/
def execG4Bt61 (s : State) : Result := emitRun ⟨.black, 61⟩ s

/-- `G4.BT62`: the terminating word for a black run of 62 (R242). -/
def execG4Bt62 (s : State) : Result := emitRun ⟨.black, 62⟩ s

/-- `G4.BT63`: the terminating word for a black run of 63 (R242). -/
def execG4Bt63 (s : State) : Result := emitRun ⟨.black, 63⟩ s

/-- `G4.BM64`: the makeup word for a black run of 64 (R242). -/
def execG4Bm64 (s : State) : Result := emitRun ⟨.black, 64⟩ s

/-- `G4.BM128`: the makeup word for a black run of 128 (R242). -/
def execG4Bm128 (s : State) : Result := emitRun ⟨.black, 65⟩ s

/-- `G4.BM192`: the makeup word for a black run of 192 (R242). -/
def execG4Bm192 (s : State) : Result := emitRun ⟨.black, 66⟩ s

/-- `G4.BM256`: the makeup word for a black run of 256 (R242). -/
def execG4Bm256 (s : State) : Result := emitRun ⟨.black, 67⟩ s

/-- `G4.BM320`: the makeup word for a black run of 320 (R242). -/
def execG4Bm320 (s : State) : Result := emitRun ⟨.black, 68⟩ s

/-- `G4.BM384`: the makeup word for a black run of 384 (R242). -/
def execG4Bm384 (s : State) : Result := emitRun ⟨.black, 69⟩ s

/-- `G4.BM448`: the makeup word for a black run of 448 (R242). -/
def execG4Bm448 (s : State) : Result := emitRun ⟨.black, 70⟩ s

/-- `G4.BM512`: the makeup word for a black run of 512 (R242). -/
def execG4Bm512 (s : State) : Result := emitRun ⟨.black, 71⟩ s

/-- `G4.BM576`: the makeup word for a black run of 576 (R242). -/
def execG4Bm576 (s : State) : Result := emitRun ⟨.black, 72⟩ s

/-- `G4.BM640`: the makeup word for a black run of 640 (R242). -/
def execG4Bm640 (s : State) : Result := emitRun ⟨.black, 73⟩ s

/-- `G4.BM704`: the makeup word for a black run of 704 (R242). -/
def execG4Bm704 (s : State) : Result := emitRun ⟨.black, 74⟩ s

/-- `G4.BM768`: the makeup word for a black run of 768 (R242). -/
def execG4Bm768 (s : State) : Result := emitRun ⟨.black, 75⟩ s

/-- `G4.BM832`: the makeup word for a black run of 832 (R242). -/
def execG4Bm832 (s : State) : Result := emitRun ⟨.black, 76⟩ s

/-- `G4.BM896`: the makeup word for a black run of 896 (R242). -/
def execG4Bm896 (s : State) : Result := emitRun ⟨.black, 77⟩ s

/-- `G4.BM960`: the makeup word for a black run of 960 (R242). -/
def execG4Bm960 (s : State) : Result := emitRun ⟨.black, 78⟩ s

/-- `G4.BM1024`: the makeup word for a black run of 1024 (R242). -/
def execG4Bm1024 (s : State) : Result := emitRun ⟨.black, 79⟩ s

/-- `G4.BM1088`: the makeup word for a black run of 1088 (R242). -/
def execG4Bm1088 (s : State) : Result := emitRun ⟨.black, 80⟩ s

/-- `G4.BM1152`: the makeup word for a black run of 1152 (R242). -/
def execG4Bm1152 (s : State) : Result := emitRun ⟨.black, 81⟩ s

/-- `G4.BM1216`: the makeup word for a black run of 1216 (R242). -/
def execG4Bm1216 (s : State) : Result := emitRun ⟨.black, 82⟩ s

/-- `G4.BM1280`: the makeup word for a black run of 1280 (R242). -/
def execG4Bm1280 (s : State) : Result := emitRun ⟨.black, 83⟩ s

/-- `G4.BM1344`: the makeup word for a black run of 1344 (R242). -/
def execG4Bm1344 (s : State) : Result := emitRun ⟨.black, 84⟩ s

/-- `G4.BM1408`: the makeup word for a black run of 1408 (R242). -/
def execG4Bm1408 (s : State) : Result := emitRun ⟨.black, 85⟩ s

/-- `G4.BM1472`: the makeup word for a black run of 1472 (R242). -/
def execG4Bm1472 (s : State) : Result := emitRun ⟨.black, 86⟩ s

/-- `G4.BM1536`: the makeup word for a black run of 1536 (R242). -/
def execG4Bm1536 (s : State) : Result := emitRun ⟨.black, 87⟩ s

/-- `G4.BM1600`: the makeup word for a black run of 1600 (R242). -/
def execG4Bm1600 (s : State) : Result := emitRun ⟨.black, 88⟩ s

/-- `G4.BM1664`: the makeup word for a black run of 1664 (R242). -/
def execG4Bm1664 (s : State) : Result := emitRun ⟨.black, 89⟩ s

/-- `G4.BM1728`: the makeup word for a black run of 1728 (R242). -/
def execG4Bm1728 (s : State) : Result := emitRun ⟨.black, 90⟩ s

/-- `G4.BM1792`: the makeup word for a black run of 1792 (R242). -/
def execG4Bm1792 (s : State) : Result := emitRun ⟨.black, 91⟩ s

/-- `G4.BM1856`: the makeup word for a black run of 1856 (R242). -/
def execG4Bm1856 (s : State) : Result := emitRun ⟨.black, 92⟩ s

/-- `G4.BM1920`: the makeup word for a black run of 1920 (R242). -/
def execG4Bm1920 (s : State) : Result := emitRun ⟨.black, 93⟩ s

/-- `G4.BM1984`: the makeup word for a black run of 1984 (R242). -/
def execG4Bm1984 (s : State) : Result := emitRun ⟨.black, 94⟩ s

/-- `G4.BM2048`: the makeup word for a black run of 2048 (R242). -/
def execG4Bm2048 (s : State) : Result := emitRun ⟨.black, 95⟩ s

/-- `G4.BM2112`: the makeup word for a black run of 2112 (R242). -/
def execG4Bm2112 (s : State) : Result := emitRun ⟨.black, 96⟩ s

/-- `G4.BM2176`: the makeup word for a black run of 2176 (R242). -/
def execG4Bm2176 (s : State) : Result := emitRun ⟨.black, 97⟩ s

/-- `G4.BM2240`: the makeup word for a black run of 2240 (R242). -/
def execG4Bm2240 (s : State) : Result := emitRun ⟨.black, 98⟩ s

/-- `G4.BM2304`: the makeup word for a black run of 2304 (R242). -/
def execG4Bm2304 (s : State) : Result := emitRun ⟨.black, 99⟩ s

/-- `G4.BM2368`: the makeup word for a black run of 2368 (R242). -/
def execG4Bm2368 (s : State) : Result := emitRun ⟨.black, 100⟩ s

/-- `G4.BM2432`: the makeup word for a black run of 2432 (R242). -/
def execG4Bm2432 (s : State) : Result := emitRun ⟨.black, 101⟩ s

/-- `G4.BM2496`: the makeup word for a black run of 2496 (R242). -/
def execG4Bm2496 (s : State) : Result := emitRun ⟨.black, 102⟩ s

/-- `G4.BM2560`: the makeup word for a black run of 2560 (R242). -/
def execG4Bm2560 (s : State) : Result := emitRun ⟨.black, 103⟩ s

end Sys2Proof.Machine
end

