-- ==== Sys2Proof/Machine/Dispatch.lean ====
section
/-! DEFINITION. The meaning of every instruction, one arm per constructor. -/

namespace Sys2Proof.Machine

def exec (i : Instr) (s : State) : Host.Outcome State Fault Refusal :=
  match i with
  | .ftNone raw => Sys2Proof.Machine.execFtNone raw s
  | .ftSub raw => Sys2Proof.Machine.execFtSub raw s
  | .ftUp raw => Sys2Proof.Machine.execFtUp raw s
  | .ftAvg raw => Sys2Proof.Machine.execFtAvg raw s
  | .ftPaeth raw => Sys2Proof.Machine.execFtPaeth raw s
  | .rle8Run n v => Sys2Proof.Machine.execRle8Run n v s
  | .rle4Run n h l => Sys2Proof.Machine.execRle4Run n h l s
  | .rleEol => Sys2Proof.Machine.execRleEol s
  | .rleEob => Sys2Proof.Machine.execRleEob s
  | .rleDelta dx dy => Sys2Proof.Machine.execRleDelta dx dy s
  | .rle8Abs n d => Sys2Proof.Machine.execRle8Abs n d s
  | .rle4Abs n d => Sys2Proof.Machine.execRle4Abs n d s
  | .lzwClear => Sys2Proof.Machine.execLzwClear s
  | .lzwEoi => Sys2Proof.Machine.execLzwEoi s
  | .lzwLit c => Sys2Proof.Machine.execLzwLit c s
  | .lzwRef c => Sys2Proof.Machine.execLzwRef c s
  | .lzwKwk => Sys2Proof.Machine.execLzwKwk s
  | .lzwIllegal c => Sys2Proof.Machine.execLzwIllegal c s
  | .g4P => Sys2Proof.Machine.execG4P s
  | .g4H => Sys2Proof.Machine.execG4H s
  | .g4Vr3 => Sys2Proof.Machine.execG4Vr3 s
  | .g4Vr2 => Sys2Proof.Machine.execG4Vr2 s
  | .g4Vr1 => Sys2Proof.Machine.execG4Vr1 s
  | .g4V0 => Sys2Proof.Machine.execG4V0 s
  | .g4Vl1 => Sys2Proof.Machine.execG4Vl1 s
  | .g4Vl2 => Sys2Proof.Machine.execG4Vl2 s
  | .g4Vl3 => Sys2Proof.Machine.execG4Vl3 s
  | .g4Eol => Sys2Proof.Machine.execG4Eol s
  | .g4Wt0 => Sys2Proof.Machine.execG4Wt0 s
  | .g4Wt1 => Sys2Proof.Machine.execG4Wt1 s
  | .g4Wt2 => Sys2Proof.Machine.execG4Wt2 s
  | .g4Wt3 => Sys2Proof.Machine.execG4Wt3 s
  | .g4Wt4 => Sys2Proof.Machine.execG4Wt4 s
  | .g4Wt5 => Sys2Proof.Machine.execG4Wt5 s
  | .g4Wt6 => Sys2Proof.Machine.execG4Wt6 s
  | .g4Wt7 => Sys2Proof.Machine.execG4Wt7 s
  | .g4Wt8 => Sys2Proof.Machine.execG4Wt8 s
  | .g4Wt9 => Sys2Proof.Machine.execG4Wt9 s
  | .g4Wt10 => Sys2Proof.Machine.execG4Wt10 s
  | .g4Wt11 => Sys2Proof.Machine.execG4Wt11 s
  | .g4Wt12 => Sys2Proof.Machine.execG4Wt12 s
  | .g4Wt13 => Sys2Proof.Machine.execG4Wt13 s
  | .g4Wt14 => Sys2Proof.Machine.execG4Wt14 s
  | .g4Wt15 => Sys2Proof.Machine.execG4Wt15 s
  | .g4Wt16 => Sys2Proof.Machine.execG4Wt16 s
  | .g4Wt17 => Sys2Proof.Machine.execG4Wt17 s
  | .g4Wt18 => Sys2Proof.Machine.execG4Wt18 s
  | .g4Wt19 => Sys2Proof.Machine.execG4Wt19 s
  | .g4Wt20 => Sys2Proof.Machine.execG4Wt20 s
  | .g4Wt21 => Sys2Proof.Machine.execG4Wt21 s
  | .g4Wt22 => Sys2Proof.Machine.execG4Wt22 s
  | .g4Wt23 => Sys2Proof.Machine.execG4Wt23 s
  | .g4Wt24 => Sys2Proof.Machine.execG4Wt24 s
  | .g4Wt25 => Sys2Proof.Machine.execG4Wt25 s
  | .g4Wt26 => Sys2Proof.Machine.execG4Wt26 s
  | .g4Wt27 => Sys2Proof.Machine.execG4Wt27 s
  | .g4Wt28 => Sys2Proof.Machine.execG4Wt28 s
  | .g4Wt29 => Sys2Proof.Machine.execG4Wt29 s
  | .g4Wt30 => Sys2Proof.Machine.execG4Wt30 s
  | .g4Wt31 => Sys2Proof.Machine.execG4Wt31 s
  | .g4Wt32 => Sys2Proof.Machine.execG4Wt32 s
  | .g4Wt33 => Sys2Proof.Machine.execG4Wt33 s
  | .g4Wt34 => Sys2Proof.Machine.execG4Wt34 s
  | .g4Wt35 => Sys2Proof.Machine.execG4Wt35 s
  | .g4Wt36 => Sys2Proof.Machine.execG4Wt36 s
  | .g4Wt37 => Sys2Proof.Machine.execG4Wt37 s
  | .g4Wt38 => Sys2Proof.Machine.execG4Wt38 s
  | .g4Wt39 => Sys2Proof.Machine.execG4Wt39 s
  | .g4Wt40 => Sys2Proof.Machine.execG4Wt40 s
  | .g4Wt41 => Sys2Proof.Machine.execG4Wt41 s
  | .g4Wt42 => Sys2Proof.Machine.execG4Wt42 s
  | .g4Wt43 => Sys2Proof.Machine.execG4Wt43 s
  | .g4Wt44 => Sys2Proof.Machine.execG4Wt44 s
  | .g4Wt45 => Sys2Proof.Machine.execG4Wt45 s
  | .g4Wt46 => Sys2Proof.Machine.execG4Wt46 s
  | .g4Wt47 => Sys2Proof.Machine.execG4Wt47 s
  | .g4Wt48 => Sys2Proof.Machine.execG4Wt48 s
  | .g4Wt49 => Sys2Proof.Machine.execG4Wt49 s
  | .g4Wt50 => Sys2Proof.Machine.execG4Wt50 s
  | .g4Wt51 => Sys2Proof.Machine.execG4Wt51 s
  | .g4Wt52 => Sys2Proof.Machine.execG4Wt52 s
  | .g4Wt53 => Sys2Proof.Machine.execG4Wt53 s
  | .g4Wt54 => Sys2Proof.Machine.execG4Wt54 s
  | .g4Wt55 => Sys2Proof.Machine.execG4Wt55 s
  | .g4Wt56 => Sys2Proof.Machine.execG4Wt56 s
  | .g4Wt57 => Sys2Proof.Machine.execG4Wt57 s
  | .g4Wt58 => Sys2Proof.Machine.execG4Wt58 s
  | .g4Wt59 => Sys2Proof.Machine.execG4Wt59 s
  | .g4Wt60 => Sys2Proof.Machine.execG4Wt60 s
  | .g4Wt61 => Sys2Proof.Machine.execG4Wt61 s
  | .g4Wt62 => Sys2Proof.Machine.execG4Wt62 s
  | .g4Wt63 => Sys2Proof.Machine.execG4Wt63 s
  | .g4Wm64 => Sys2Proof.Machine.execG4Wm64 s
  | .g4Wm128 => Sys2Proof.Machine.execG4Wm128 s
  | .g4Wm192 => Sys2Proof.Machine.execG4Wm192 s
  | .g4Wm256 => Sys2Proof.Machine.execG4Wm256 s
  | .g4Wm320 => Sys2Proof.Machine.execG4Wm320 s
  | .g4Wm384 => Sys2Proof.Machine.execG4Wm384 s
  | .g4Wm448 => Sys2Proof.Machine.execG4Wm448 s
  | .g4Wm512 => Sys2Proof.Machine.execG4Wm512 s
  | .g4Wm576 => Sys2Proof.Machine.execG4Wm576 s
  | .g4Wm640 => Sys2Proof.Machine.execG4Wm640 s
  | .g4Wm704 => Sys2Proof.Machine.execG4Wm704 s
  | .g4Wm768 => Sys2Proof.Machine.execG4Wm768 s
  | .g4Wm832 => Sys2Proof.Machine.execG4Wm832 s
  | .g4Wm896 => Sys2Proof.Machine.execG4Wm896 s
  | .g4Wm960 => Sys2Proof.Machine.execG4Wm960 s
  | .g4Wm1024 => Sys2Proof.Machine.execG4Wm1024 s
  | .g4Wm1088 => Sys2Proof.Machine.execG4Wm1088 s
  | .g4Wm1152 => Sys2Proof.Machine.execG4Wm1152 s
  | .g4Wm1216 => Sys2Proof.Machine.execG4Wm1216 s
  | .g4Wm1280 => Sys2Proof.Machine.execG4Wm1280 s
  | .g4Wm1344 => Sys2Proof.Machine.execG4Wm1344 s
  | .g4Wm1408 => Sys2Proof.Machine.execG4Wm1408 s
  | .g4Wm1472 => Sys2Proof.Machine.execG4Wm1472 s
  | .g4Wm1536 => Sys2Proof.Machine.execG4Wm1536 s
  | .g4Wm1600 => Sys2Proof.Machine.execG4Wm1600 s
  | .g4Wm1664 => Sys2Proof.Machine.execG4Wm1664 s
  | .g4Wm1728 => Sys2Proof.Machine.execG4Wm1728 s
  | .g4Wm1792 => Sys2Proof.Machine.execG4Wm1792 s
  | .g4Wm1856 => Sys2Proof.Machine.execG4Wm1856 s
  | .g4Wm1920 => Sys2Proof.Machine.execG4Wm1920 s
  | .g4Wm1984 => Sys2Proof.Machine.execG4Wm1984 s
  | .g4Wm2048 => Sys2Proof.Machine.execG4Wm2048 s
  | .g4Wm2112 => Sys2Proof.Machine.execG4Wm2112 s
  | .g4Wm2176 => Sys2Proof.Machine.execG4Wm2176 s
  | .g4Wm2240 => Sys2Proof.Machine.execG4Wm2240 s
  | .g4Wm2304 => Sys2Proof.Machine.execG4Wm2304 s
  | .g4Wm2368 => Sys2Proof.Machine.execG4Wm2368 s
  | .g4Wm2432 => Sys2Proof.Machine.execG4Wm2432 s
  | .g4Wm2496 => Sys2Proof.Machine.execG4Wm2496 s
  | .g4Wm2560 => Sys2Proof.Machine.execG4Wm2560 s
  | .g4Bt0 => Sys2Proof.Machine.execG4Bt0 s
  | .g4Bt1 => Sys2Proof.Machine.execG4Bt1 s
  | .g4Bt2 => Sys2Proof.Machine.execG4Bt2 s
  | .g4Bt3 => Sys2Proof.Machine.execG4Bt3 s
  | .g4Bt4 => Sys2Proof.Machine.execG4Bt4 s
  | .g4Bt5 => Sys2Proof.Machine.execG4Bt5 s
  | .g4Bt6 => Sys2Proof.Machine.execG4Bt6 s
  | .g4Bt7 => Sys2Proof.Machine.execG4Bt7 s
  | .g4Bt8 => Sys2Proof.Machine.execG4Bt8 s
  | .g4Bt9 => Sys2Proof.Machine.execG4Bt9 s
  | .g4Bt10 => Sys2Proof.Machine.execG4Bt10 s
  | .g4Bt11 => Sys2Proof.Machine.execG4Bt11 s
  | .g4Bt12 => Sys2Proof.Machine.execG4Bt12 s
  | .g4Bt13 => Sys2Proof.Machine.execG4Bt13 s
  | .g4Bt14 => Sys2Proof.Machine.execG4Bt14 s
  | .g4Bt15 => Sys2Proof.Machine.execG4Bt15 s
  | .g4Bt16 => Sys2Proof.Machine.execG4Bt16 s
  | .g4Bt17 => Sys2Proof.Machine.execG4Bt17 s
  | .g4Bt18 => Sys2Proof.Machine.execG4Bt18 s
  | .g4Bt19 => Sys2Proof.Machine.execG4Bt19 s
  | .g4Bt20 => Sys2Proof.Machine.execG4Bt20 s
  | .g4Bt21 => Sys2Proof.Machine.execG4Bt21 s
  | .g4Bt22 => Sys2Proof.Machine.execG4Bt22 s
  | .g4Bt23 => Sys2Proof.Machine.execG4Bt23 s
  | .g4Bt24 => Sys2Proof.Machine.execG4Bt24 s
  | .g4Bt25 => Sys2Proof.Machine.execG4Bt25 s
  | .g4Bt26 => Sys2Proof.Machine.execG4Bt26 s
  | .g4Bt27 => Sys2Proof.Machine.execG4Bt27 s
  | .g4Bt28 => Sys2Proof.Machine.execG4Bt28 s
  | .g4Bt29 => Sys2Proof.Machine.execG4Bt29 s
  | .g4Bt30 => Sys2Proof.Machine.execG4Bt30 s
  | .g4Bt31 => Sys2Proof.Machine.execG4Bt31 s
  | .g4Bt32 => Sys2Proof.Machine.execG4Bt32 s
  | .g4Bt33 => Sys2Proof.Machine.execG4Bt33 s
  | .g4Bt34 => Sys2Proof.Machine.execG4Bt34 s
  | .g4Bt35 => Sys2Proof.Machine.execG4Bt35 s
  | .g4Bt36 => Sys2Proof.Machine.execG4Bt36 s
  | .g4Bt37 => Sys2Proof.Machine.execG4Bt37 s
  | .g4Bt38 => Sys2Proof.Machine.execG4Bt38 s
  | .g4Bt39 => Sys2Proof.Machine.execG4Bt39 s
  | .g4Bt40 => Sys2Proof.Machine.execG4Bt40 s
  | .g4Bt41 => Sys2Proof.Machine.execG4Bt41 s
  | .g4Bt42 => Sys2Proof.Machine.execG4Bt42 s
  | .g4Bt43 => Sys2Proof.Machine.execG4Bt43 s
  | .g4Bt44 => Sys2Proof.Machine.execG4Bt44 s
  | .g4Bt45 => Sys2Proof.Machine.execG4Bt45 s
  | .g4Bt46 => Sys2Proof.Machine.execG4Bt46 s
  | .g4Bt47 => Sys2Proof.Machine.execG4Bt47 s
  | .g4Bt48 => Sys2Proof.Machine.execG4Bt48 s
  | .g4Bt49 => Sys2Proof.Machine.execG4Bt49 s
  | .g4Bt50 => Sys2Proof.Machine.execG4Bt50 s
  | .g4Bt51 => Sys2Proof.Machine.execG4Bt51 s
  | .g4Bt52 => Sys2Proof.Machine.execG4Bt52 s
  | .g4Bt53 => Sys2Proof.Machine.execG4Bt53 s
  | .g4Bt54 => Sys2Proof.Machine.execG4Bt54 s
  | .g4Bt55 => Sys2Proof.Machine.execG4Bt55 s
  | .g4Bt56 => Sys2Proof.Machine.execG4Bt56 s
  | .g4Bt57 => Sys2Proof.Machine.execG4Bt57 s
  | .g4Bt58 => Sys2Proof.Machine.execG4Bt58 s
  | .g4Bt59 => Sys2Proof.Machine.execG4Bt59 s
  | .g4Bt60 => Sys2Proof.Machine.execG4Bt60 s
  | .g4Bt61 => Sys2Proof.Machine.execG4Bt61 s
  | .g4Bt62 => Sys2Proof.Machine.execG4Bt62 s
  | .g4Bt63 => Sys2Proof.Machine.execG4Bt63 s
  | .g4Bm64 => Sys2Proof.Machine.execG4Bm64 s
  | .g4Bm128 => Sys2Proof.Machine.execG4Bm128 s
  | .g4Bm192 => Sys2Proof.Machine.execG4Bm192 s
  | .g4Bm256 => Sys2Proof.Machine.execG4Bm256 s
  | .g4Bm320 => Sys2Proof.Machine.execG4Bm320 s
  | .g4Bm384 => Sys2Proof.Machine.execG4Bm384 s
  | .g4Bm448 => Sys2Proof.Machine.execG4Bm448 s
  | .g4Bm512 => Sys2Proof.Machine.execG4Bm512 s
  | .g4Bm576 => Sys2Proof.Machine.execG4Bm576 s
  | .g4Bm640 => Sys2Proof.Machine.execG4Bm640 s
  | .g4Bm704 => Sys2Proof.Machine.execG4Bm704 s
  | .g4Bm768 => Sys2Proof.Machine.execG4Bm768 s
  | .g4Bm832 => Sys2Proof.Machine.execG4Bm832 s
  | .g4Bm896 => Sys2Proof.Machine.execG4Bm896 s
  | .g4Bm960 => Sys2Proof.Machine.execG4Bm960 s
  | .g4Bm1024 => Sys2Proof.Machine.execG4Bm1024 s
  | .g4Bm1088 => Sys2Proof.Machine.execG4Bm1088 s
  | .g4Bm1152 => Sys2Proof.Machine.execG4Bm1152 s
  | .g4Bm1216 => Sys2Proof.Machine.execG4Bm1216 s
  | .g4Bm1280 => Sys2Proof.Machine.execG4Bm1280 s
  | .g4Bm1344 => Sys2Proof.Machine.execG4Bm1344 s
  | .g4Bm1408 => Sys2Proof.Machine.execG4Bm1408 s
  | .g4Bm1472 => Sys2Proof.Machine.execG4Bm1472 s
  | .g4Bm1536 => Sys2Proof.Machine.execG4Bm1536 s
  | .g4Bm1600 => Sys2Proof.Machine.execG4Bm1600 s
  | .g4Bm1664 => Sys2Proof.Machine.execG4Bm1664 s
  | .g4Bm1728 => Sys2Proof.Machine.execG4Bm1728 s
  | .g4Bm1792 => Sys2Proof.Machine.execG4Bm1792 s
  | .g4Bm1856 => Sys2Proof.Machine.execG4Bm1856 s
  | .g4Bm1920 => Sys2Proof.Machine.execG4Bm1920 s
  | .g4Bm1984 => Sys2Proof.Machine.execG4Bm1984 s
  | .g4Bm2048 => Sys2Proof.Machine.execG4Bm2048 s
  | .g4Bm2112 => Sys2Proof.Machine.execG4Bm2112 s
  | .g4Bm2176 => Sys2Proof.Machine.execG4Bm2176 s
  | .g4Bm2240 => Sys2Proof.Machine.execG4Bm2240 s
  | .g4Bm2304 => Sys2Proof.Machine.execG4Bm2304 s
  | .g4Bm2368 => Sys2Proof.Machine.execG4Bm2368 s
  | .g4Bm2432 => Sys2Proof.Machine.execG4Bm2432 s
  | .g4Bm2496 => Sys2Proof.Machine.execG4Bm2496 s
  | .g4Bm2560 => Sys2Proof.Machine.execG4Bm2560 s
  | .cmdStart u => Sys2Proof.Machine.execCmdStart u s
  | .cmdClear u => Sys2Proof.Machine.execCmdClear u s

end Sys2Proof.Machine
end

