-- ==== Sys2Proof/Machine/Turns.lean ====
section
/-! DEFINITION. What each agent does in its turn: the units fetch their next element and run it, the host does its next
access; and whose turn it is. -/

namespace Sys2Proof.Machine

/-! ### The units -/

/-- PFE's turn while BUSY (40_png_filter.md R155). -/
def pfeStep (s : State) : Result :=
  match s.pfe.fetch with
  | .ok i => exec i s
  | .error e => .next { s with pfe := { s.pfe with sh := s.pfe.sh.raise e s.pfe.sh.inPos } }

/-- RLD's turn while BUSY (43_bmp_rle.md R263). -/
def rldStep (s : State) : Result :=
  match s.rld.fetch with
  | .ok i => exec i s
  | .error e => .next { s with rld := { s.rld with sh := s.rld.sh.raise e s.rld.sh.inPos } }

/-- The state after LZD's fetch of a code, and the code's class (41_lzw.md R187): classified with the registers as they are
before the element. -/
def Lzd.element (l : Lzd) : Instr × Lzd :=
  let t := l.take
  (classify t.2.cx t.1, t.2)

/-- LZD's turn while BUSY (41_lzw.md R185 to R187). -/
def lzdStep (s : State) : Result :=
  if s.lzd.outMax ≤ s.lzd.sh.outLen.toNat then .next { s with lzd := s.lzd.finish false }
  else
    match s.lzd.fill 2 with
    | (l, false) => .next { s with lzd := l.finish true }
    | (l, true) => exec l.element.1 { s with lzd := l.element.2 }

/-- The run words a horizontal mode left are packed in order, until the unit faults or none is left (42_g4_encoder.md
R233). -/
def drain : List RunWord → State → Result
  | [], s => .next s
  | w :: ws, s =>
    match w.instr with
    | none => .fault .noSuchWord
    | some i =>
      match exec i { s with g4e := { s.g4e with pend := ws } } with
      | .next t => if t.g4e.sh.busy then drain ws t else .next t
      | .fault f => .fault f
      | .refused r => .refused r

/-- An element of G4E with the run words it leaves. -/
def runMode (i : Instr) (s : State) : Result :=
  match exec i s with
  | .next t => if t.g4e.sh.busy then drain t.g4e.pend t else .next t
  | .fault f => .fault f
  | .refused r => .refused r

/-- G4E's turn while BUSY (42_g4_encoder.md R230): run words still to pack, the end of block, a row opening, or a mode. -/
def g4eStep (s : State) : Result :=
  if s.g4e.pend.isEmpty = false then drain s.g4e.pend s
  else if s.g4e.inrow then runMode s.g4e.mode s
  else if s.g4e.row.toNat = s.g4e.height then exec .g4Eol s
  else if s.g4e.row.toNat < s.g4e.height then settle (s.g4e.openRow s.cfg) fun g => { s with g4e := g }
  else .fault .noSuchRow

/-- A unit's turn: nothing unless it is BUSY (60_exceptions.md R335). -/
def unitStep (u : UnitId) (s : State) : Result :=
  if (s.shell u).busy then
    match u with
    | .pfe => pfeStep s
    | .lzd => lzdStep s
    | .g4e => g4eStep s
    | .rld => rldStep s
  else .next s

/-! ### The host -/

/-- A host access (44_host_commands.md R290, R291, R295): a write to `CTRL` is a command, without effect where it is reserved
(R294). -/
def hostAct (a : HostAction) (s : State) : Result :=
  match a with
  | .write u i v =>
    if i = 0 then
      match decodeCmd u v with
      | .ok c => exec c s
      | .error _ => .next s
    else .next (s.access (.write u i v))
  | a => .next (s.access a)

/-- The host's turn: its next access, if one waits. -/
def hostStep (s : State) : Result :=
  match s.hostQ with
  | [] => .next s
  | a :: rest => hostAct a { s with hostQ := rest }

/-! ### Turns -/

/-- The agents in a fixed round. -/
def roundAgent (n : Nat) : Agent :=
  if n % 5 = 0 then .host
  else if n % 5 = 1 then .unit .pfe
  else if n % 5 = 2 then .unit .lzd
  else if n % 5 = 3 then .unit .g4e
  else .unit .rld

/-- Whose turn it is, and the state with that turn taken. When the granted turns run out, a free stretch of turns comes
followed by the next agent of the round: every fair order of turns has this form, and every order of this form is fair
(70_reset_and_hazards.md R363; log 6). -/
def State.takeTurn (s : State) : Agent × State :=
  match s.sched with
  | a :: rest => (a, { s with sched := rest })
  | [] =>
    let turns := freeTurns s.tick ++ [roundAgent s.tick]
    (turns.headD (roundAgent s.tick), { s with sched := turns.tail, tick := s.tick + 1 })

/-- An agent's turn. -/
def agentStep (a : Agent) (s : State) : Result :=
  match a with
  | .host => hostStep s
  | .unit u => unitStep u s

end Sys2Proof.Machine
end

