-- ==== Sys2Proof/Machine/TableWord.lean ====
section
/-! DEFINITION. How one element of spec/opcode_table.json is placed so that the very next step runs it (log 10): a loader of
the model, standing for a host that has configured and started a unit. -/

namespace Sys2Proof.Machine

/-- The next turn is the agent's. -/
def State.grant (s : State) (a : Agent) : State := { s with sched := a :: s.sched }

/-- A shell with a configuration and input as the host writes them, in IDLE. -/
def Shell.load (sh : Shell) (c0 c1 c2 : Word) (bs : List Byte) : Shell :=
  { sh with
    state := .idle
    cfg0 := c0
    cfg1 := c1
    cfg2 := c2
    inLen := word bs.length
    inBuf := store sh.inBuf 0 bs }

/-- PFE started on an 8-bit gray image of one pixel whose record is `bs`. -/
def State.placePfe (s : State) (bs : List Byte) : State :=
  { s with pfe := { s.pfe with sh := s.pfe.sh.load 1 1 8 bs }.start s.cfg }.grant (.unit .pfe)

/-- RLD started in RLE8 mode on a canvas of one row of 255 pixels with the input `bs`. -/
def State.placeRld (s : State) (bs : List Byte) : State :=
  { s with rld := { s.rld with sh := s.rld.sh.load 255 1 0 bs }.start s.cfg }.grant (.unit .rld)

/-- G4E started on rows of 8 pixels, `h` of them. -/
def State.placeG4 (s : State) (h : Word) : State :=
  { s with g4e := { s.g4e with sh := s.g4e.sh.load 8 h 0 [] }.start s.cfg }.grant (.unit .g4e)

/-- G4E in a row, with the coding line and the reference line. -/
def State.placeLines (s : State) (cur ref : Byte) : State :=
  let t := s.placeG4 1
  { t with g4e := ({ t.g4e with inrow := true, cur := store t.g4e.cur 0 [cur], ref := store t.g4e.ref 0 [ref] } : G4e).rowStart }

/-- G4E where its next element is the mode word `k` of `Instr.g4Index`: coding lines that select it, or the end of block. -/
def State.placeMode (s : State) (k : Nat) : State :=
  if k = 0 then s.placeLines 0x00 0x38
  else if k = 1 then s.placeLines 0x20 0x00
  else if k = 9 then s.placeG4 0
  else s.placeLines 0x08 (BitVec.ofNat 8 (2 ^ (9 - k) - 1))

/-- G4E where its next element is a run word. -/
def State.placeRun (s : State) (w : RunWord) : State :=
  let t := s.placeG4 0
  { t with g4e := { t.g4e with pend := [w] } }

/-- The host about to write `v` to the `CTRL` of PFE. -/
def State.placeCmd (s : State) (v : Word) : State :=
  { s with hostQ := .write .pfe 0 v :: s.hostQ }.grant .host

/-- The element of `decodeTableWord nbits w` placed to run next. A filter byte or command is placed as the bytes themselves. -/
def State.placeTableWord (s : State) (nbits w : Nat) : State :=
  let g4 : Option Instr := if nbits = 8 && decide (w ≤ 4) then none else tableG4 nbits w
  if nbits = 32 && (decide (w = 1) || decide (w = 2)) then s.placeCmd (BitVec.ofNat 32 w)
  else if nbits = 16 || nbits = 32 then
    s.placeRld (tableBytes (nbits / 8) w ++ List.replicate (258 - nbits / 8) 0)
  else
    match g4.bind Instr.g4Index with
    | some (.mode, k) => s.placeMode k
    | some (.white, k) => s.placeRun ⟨.white, Fin.ofNat 104 k⟩
    | some (.black, k) => s.placeRun ⟨.black, Fin.ofNat 104 k⟩
    | none => s.placePfe (tableBytes 1 w ++ [0])

end Sys2Proof.Machine
end

