-- ==== Sys2Proof/Machine/Step.lean ====
section
/-! DEFINITION. One step of the machine: the agent whose turn it is does what it does in a turn. -/

namespace Sys2Proof.Machine

/-- One step: one element of a BUSY unit, or one access of the host (00_scope.md R10, R12). -/
def step (s : State) : Host.Outcome State Fault Refusal := agentStep s.takeTurn.1 s.takeTurn.2

/-- The state in which the next step runs the table's element whose bits are `w` (log 10). -/
def State.withFetchWord (s : State) (nbits w : Nat) : State := s.placeTableWord nbits w

end Sys2Proof.Machine
end

