-- ==== Sys2Proof/Safety.lean ====
section
/-! DEFINITION. What a good state is (the invariants the spec states or relies on), and what a safe run is, in the terms the
obligations use. -/

namespace Sys2Proof.Machine

/-- Every cell of a memory lies below `n` (20_memory.md R74). -/
def cellsBelow {w : Nat} (n : Nat) (m : Mem w) : Prop := ∀ c ∈ m, c.1 < n

/-- What holds of every unit's registers and buffers in every state (10_state.md R23, R26 to R33, R47; 20_memory.md R74). -/
structure Shell.Good (cfg : Config) (u : UnitId) (sh : Shell) : Prop where
  inCanonical : canonical sh.inBuf = true
  outCanonical : canonical sh.outBuf = true
  inCells : cellsBelow cfg.maxIn sh.inBuf
  outCells : cellsBelow cfg.maxOut sh.outBuf
  /-- `ERR` is 0 unless `STATE = FAULT` (R23), and a fault has a code -/
  errOnlyInFault : sh.err = .none ↔ sh.state ≠ .fault
  /-- the flags are 0 unless the unit is DONE (R47) -/
  flagsOnlyInDone : sh.state ≠ .done → sh.flags = .clear
  /-- `ERR_POS` is 0 unless the unit is in FAULT (R28) -/
  errPosOnlyInFault : sh.state ≠ .fault → sh.errPos = 0
  /-- reserved bits are not stored (R29 to R33) -/
  reserved0 : sh.cfg0 &&& ~~~cfgMask u 8 = 0
  reserved1 : sh.cfg1 &&& ~~~cfgMask u 9 = 0
  reserved2 : sh.cfg2 &&& ~~~cfgMask u 10 = 0
  /-- during a run the cursor stays inside the input (R26) -/
  cursor : sh.state = .busy → sh.inPos.toNat ≤ sh.inLen.toNat ∧ sh.inLen.toNat ≤ cfg.maxIn

/-- PFE in a run: a legal configuration, the current pass with its dimensions, a row still due (40_png_filter.md R141, R153,
R155). -/
structure Pfe.Running (cfg : Config) (p : Pfe) : Prop where
  legal : p.legal cfg = true
  pass : ∃ g, p.passes[p.pass.toNat]? = some g ∧ p.pw.toNat = p.passWidth g ∧ p.ph.toNat = p.passHeight g ∧
    p.prb.toNat = p.passBytes g ∧ p.passFull g = true
  row : p.row.toNat < p.ph.toNat

/-- What holds of PFE in every state. -/
structure Pfe.Good (cfg : Config) (p : Pfe) : Prop where
  shell : p.sh.Good cfg .pfe
  currCanonical : canonical p.curr = true
  priorCanonical : canonical p.prior = true
  currCells : cellsBelow (lineCells cfg) p.curr
  priorCells : cellsBelow (lineCells cfg) p.prior
  /-- `SHORT` and `UNDER` are always 0 in PFE (10_state.md R23) -/
  noShort : p.sh.flags.short = false ∧ p.sh.flags.under = false
  running : p.sh.state = .busy → p.Running cfg

/-- The bits of `IN[0 .. IN_LEN - 1]` in stream order: each byte from bit 0 up in the GIF variant (30_encoding.md R109),
from bit 7 down in the TIFF variant (R110). -/
def Lzd.stream (l : Lzd) : List Bool :=
  (readBlock (.input .lzd) l.sh.inGen l.sh.inBuf 0 l.sh.inLen.toNat).flatMap fun b =>
    if l.tiff then msbBits 8 b.toNat else lsbBits 8 b.toNat

/-- The stream bit at which the next code starts: `NBITS` of the bits loaded are not yet used (10_state.md R48). -/
def Lzd.bitPos (l : Lzd) : Nat := 8 * l.sh.inPos.toNat - l.nbits.toNat

/-- The unused bits of `DATUM` in stream order (41_lzw.md R183, R184). -/
def Lzd.held (l : Lzd) : List Bool :=
  if l.tiff then msbBits l.nbits.toNat l.datum.toNat else lsbBits l.nbits.toNat l.datum.toNat

/-- A code that has a string (41_lzw.md R196). -/
def Lzd.codeOk (l : Lzd) (k : Nat) : Prop := k < l.cx.clear ∨ (l.cx.firstFree ≤ k ∧ k < l.cx.avail)

/-- LZD in a run (10_state.md R36, 41_lzw.md R181, R193, R196, R197). -/
structure Lzd.Running (cfg : Config) (l : Lzd) : Prop where
  legal : l.legal cfg = true
  ranges : l.cx.ok = true
  /-- the next entry's code fits the code size, or the table has its last size (R193) -/
  width : l.avail.toNat < l.growAt ∨ l.codeSize.toNat = 12
  buffered : l.nbits.toNat ≤ 7
  accumulator : l.datum.toNat < 2 ^ l.nbits.toNat
  /-- the accumulator holds the stream bits before the cursor that no code has used (R109, R110, 10_state.md R48) -/
  loaded : l.nbits.toNat ≤ 8 * l.sh.inPos.toNat ∧ l.held = (l.stream.drop l.bitPos).take l.nbits.toNat
  output : l.sh.outLen.toNat ≤ l.outMax
  old : l.oldValid = true → l.codeOk l.old.toNat
  /-- R196: a string's prefix is an earlier code that has a string -/
  chain : ∀ k, l.cx.firstFree ≤ k → k < l.cx.avail → (l.prefixAt k).toNat < k ∧ l.codeOk (l.prefixAt k).toNat
  /-- `FIRST` is the first byte of `expand(OLD)` (R192) -/
  head : l.oldValid = true → ∀ str, l.expand l.old.toNat = some str → str.head? = some l.first

/-- What holds of LZD in every state. -/
structure Lzd.Good (cfg : Config) (l : Lzd) : Prop where
  shell : l.sh.Good cfg .lzd
  prefixCanonical : canonical l.prefixTab = true
  suffixCanonical : canonical l.suffixTab = true
  prefixCells : cellsBelow 4096 l.prefixTab
  suffixCells : cellsBelow 4096 l.suffixTab
  /-- `SHORT` implies `UNDER` and excludes `IN_REM` (41_lzw.md R200) -/
  shortFlag : l.sh.flags.short = true → l.sh.flags.under = true ∧ l.sh.flags.inRem = false
  running : l.sh.state = .busy → l.Running cfg

/-- The bits packed so far: the bytes of `OUT` and the filled high bits of `ACC` (42_g4_encoder.md R235). -/
def G4e.sent (g : G4e) : List Bool :=
  (readBlock (.output .g4e) g.sh.outGen g.sh.outBuf 0 g.sh.outLen.toNat).flatMap (fun b => msbBits 8 b.toNat) ++
    (msbBits 8 g.acc.toNat).take (8 - g.free.toNat)

/-- The bit packer between words (10_state.md R38, 42_g4_encoder.md R235): 1 to 8 bits are free, and they are 0. -/
structure G4e.PackerOk (g : G4e) : Prop where
  free : 1 ≤ g.free.toNat ∧ g.free.toNat ≤ 8
  low : g.acc.toNat % 2 ^ g.free.toNat = 0

/-- G4E in a run (42_g4_encoder.md R221, R226 to R230, R244). -/
structure G4e.Running (cfg : Config) (g : G4e) : Prop where
  legal : g.legal cfg = true
  packer : g.PackerOk
  output : g.sh.outLen.toNat ≤ cfg.maxOut
  rows : g.row.toNat ≤ g.height
  inRow : g.inrow = true → g.row.toNat < g.height ∧ g.a0.toNat < g.width
  /-- `A0`, `A1`, `B1` are those of the row start or of an advance (R226, R229) -/
  elements : g.inrow = true → g = g.rowStart ∨ g = g.advance
  consumed : g.sh.inPos.toNat = g.rowBytes * (g.row.toNat + if g.inrow then 1 else 0)
  nothingPending : g.pend = []

/-- What holds of G4E in every state. -/
structure G4e.Good (cfg : Config) (g : G4e) : Prop where
  shell : g.sh.Good cfg .g4e
  curCanonical : canonical g.cur = true
  refCanonical : canonical g.ref = true
  curCells : cellsBelow (rowCells cfg) g.cur
  refCells : cellsBelow (rowCells cfg) g.ref
  noShort : g.sh.flags.short = false ∧ g.sh.flags.under = false
  running : g.sh.state = .busy → g.Running cfg

/-- RLD in a run (43_bmp_rle.md R261, R271, R273): commands start at even offsets, and the position has not wrapped. -/
structure Rld.Running (cfg : Config) (r : Rld) : Prop where
  legal : r.legal cfg = true
  even : r.sh.inPos.toNat % 2 = 0
  column : 2 * r.x.toNat ≤ 255 * r.sh.inPos.toNat
  line : 2 * r.y.toNat ≤ 255 * r.sh.inPos.toNat

/-- What holds of RLD in every state. -/
structure Rld.Good (cfg : Config) (r : Rld) : Prop where
  shell : r.sh.Good cfg .rld
  noShort : r.sh.flags.short = false ∧ r.sh.flags.under = false
  running : r.sh.state = .busy → r.Running cfg

/-- What holds of the machine in every state of every run. -/
structure State.Good (s : State) : Prop where
  params : s.cfg.wf = true
  pfe : s.pfe.Good s.cfg
  lzd : s.lzd.Good s.cfg
  g4e : s.g4e.Good s.cfg
  rld : s.rld.Good s.cfg

/-! ### Runs -/

/-- A step that neither faults nor refuses. -/
def Goes (r : Result) : Prop := ∃ t, r = .next t

/-- A run of `n` steps from `s` is safe: no step of it stops the machine. -/
def SafeFor (n : Nat) (s : State) : Prop := Goes (Sys2Proof.core.run n s)

/-- The units of a list take their turns in its order, up to the first stop (60_exceptions.md R336). -/
def runTurns : List UnitId → State → Result
  | [], s => .next s
  | u :: us, s =>
    match unitStep u s with
    | .next t => runTurns us t
    | .fault f => .fault f
    | .refused r => .refused r

/-! ### What the obligations say of a unit before (`l`, `g`, `r`) and after (primed) an element -/

/-- Bit `o` of bytes laid out most significant bit first (00_scope.md R8). -/
def bitAt (byteAt : Nat → Byte) (o : Nat) : Bool := (byteAt (o / 8)).getLsbD (7 - o % 8)

/-- `v` is what 40_png_filter.md R149 has PaethPredictor return for `(a, b, c)`. -/
def PaethIs (a b c v : Nat) : Prop :=
  let p : Int := (a : Int) + b - c
  (|p - a| ≤ |p - b| ∧ |p - a| ≤ |p - c| ∧ v = a) ∨
    (¬(|p - a| ≤ |p - b| ∧ |p - a| ≤ |p - c|) ∧ |p - b| ≤ |p - c| ∧ v = b) ∨
    (¬(|p - a| ≤ |p - b| ∧ |p - a| ≤ |p - c|) ∧ ¬|p - b| ≤ |p - c| ∧ v = c)

/-- `OUT` and `OUT_LEN` after `append str` (41_lzw.md R197); the shell's other registers keep their values. -/
def Lzd.Appended (l l' : Lzd) (str : List Byte) : Prop :=
  let n := l.sh.outLen.toNat
  let m := min str.length (l.outMax - n)
  l'.sh = { l.sh with outLen := word (n + m), outBuf := l'.sh.outBuf } ∧
    ∀ a, l'.sh.outByte .lzd a = if n ≤ a ∧ a < n + m then str.getD (a - n) 0 else l.sh.outByte .lzd a

/-- The string table and `CODE_SIZE` after `add entry (o, f)` (41_lzw.md R193, R194). -/
def Lzd.Added (l l' : Lzd) (o : BitVec 12) (f : Byte) : Prop :=
  (∀ k, l'.prefixAt k = if k = l.avail.toNat ∧ k < 4096 then o else l.prefixAt k) ∧
    (∀ k, l'.suffixAt k = if k = l.avail.toNat ∧ k < 4096 then f else l.suffixAt k) ∧
    (4096 ≤ l.avail.toNat → l'.avail = l.avail ∧ l'.codeSize = l.codeSize) ∧
    (l.avail.toNat < 4096 →
      l'.avail.toNat = l.avail.toNat + 1 ∧
        l'.codeSize.toNat =
          if l.avail.toNat + 1 = (if l.tiff then 2 ^ l.codeSize.toNat - 1 else 2 ^ l.codeSize.toNat) ∧
              l.codeSize.toNat < 12
          then l.codeSize.toNat + 1 else l.codeSize.toNat)

/-- `n` more bits fit: the bytes they complete do not pass `MAX_OUT` (42_g4_encoder.md R235, R239). -/
def G4e.Room (cfg : Config) (g : G4e) (n : Nat) : Prop :=
  g.sh.outLen.toNat + (8 - g.free.toNat + n) / 8 ≤ cfg.maxOut

/-- The packer has sent the bits `bs` and nothing else of `OUT` has changed (42_g4_encoder.md R235). -/
def G4e.Packed (g g' : G4e) (bs : List Bool) : Prop :=
  g'.PackerOk ∧ g'.sent = g.sent ++ bs ∧
    g'.sh = { g.sh with
      outBuf := g'.sh.outBuf
      outLen := word (g.sh.outLen.toNat + (8 - g.free.toNat + bs.length) / 8) } ∧
    ∀ a, a < g.sh.outLen.toNat ∨ g'.sh.outLen.toNat ≤ a → g'.sh.outByte .g4e a = g.sh.outByte .g4e a

/-- The unit has taken the fault `E_OVF` (42_g4_encoder.md R239, 60_exceptions.md R317, R318). -/
def G4e.Overflowed (cfg : Config) (g g' : G4e) : Prop :=
  g'.sh = { g.sh with
    outBuf := g'.sh.outBuf
    outLen := word cfg.maxOut
    err := .ovf
    errPos := g.sh.inPos
    flags := .clear
    state := .fault }

/-- After a mode has set `A0`: row end (42_g4_encoder.md R236) or advance (R229). -/
def G4e.Moved (g g' : G4e) (a0 : Nat) : Prop :=
  let refAt (h : G4e) (k : Nat) : Byte := cell .ref h.sh.inGen h.ref k
  let curAt (h : G4e) (k : Nat) : Byte := cell .cur h.sh.inGen h.cur k
  let k := g.curPixel a0
  g'.a0.toNat = a0 ∧
    (g.width ≤ a0 →
      g'.row.toNat = g.row.toNat + 1 ∧ g'.inrow = false ∧ g'.a1 = g.a1 ∧ g'.b1 = g.b1 ∧
        ∀ j, refAt g' j = if j < g.rowBytes then curAt g j else refAt g j) ∧
    (a0 < g.width →
      g'.row = g.row ∧ g'.inrow = g.inrow ∧ g'.ref = g.ref ∧
        g'.a1.toNat = finddiff g.curPixel a0 g.width k ∧
        g'.b1.toNat = finddiff g.refPixel (finddiff g.refPixel a0 g.width (!k)) g.width k)

/-- A mode has sent the bits `bs`, set `A0` to `a0`, moved on, and left the run words `ws` to pack. -/
def G4e.Coded (g g' : G4e) (bs : List Bool) (a0 : Nat) (ws : List RunWord) : Prop :=
  g.Packed g' bs ∧ g.Moved g' a0 ∧ g'.cur = g.cur ∧ g'.pend = ws

/-- The run words of a horizontal mode (42_g4_encoder.md R233). -/
def G4e.RunsAre (g : G4e) (ws : List RunWord) : Prop :=
  let a2 := finddiff2 g.curPixel g.a1.toNat g.width (g.curPixel g.a1.toNat)
  let span1 := g.a1.toNat - g.a0.toNat
  let span2 := a2 - g.a1.toNat
  ws =
    if g.a0.toNat + g.a1.toNat = 0 ∨ g.curPixel g.a0.toNat = false then runWords .white span1 ++ runWords .black span2
    else runWords .black span1 ++ runWords .white span2

/-- The bits of run words in the instance's tables; a table too short for a word gives none. -/
def runBits (cfg : Config) (ws : List RunWord) : List Bool :=
  ws.flatMap fun w => ((runCode cfg w).map CodeWord.bits).getD []

/-- The pixels `px 0` to `px (n - 1)` are on the canvas from the position on, nothing else of `OUT` has changed, and the
column and the cursor have moved (43_bmp_rle.md R264, R272; 20_memory.md R80). -/
def Rld.Wrote (r r' : Rld) (n : Nat) (px : Nat → Byte) (len : Nat) : Prop :=
  let row := if r.flip then r.height - 1 - r.y.toNat else r.y.toNat
  let start := row * r.width + r.x.toNat
  r' = { r with
    x := word (r.x.toNat + n)
    sh := { r.sh with inPos := word (r.sh.inPos.toNat + len), outBuf := r'.sh.outBuf } } ∧
    ∀ a, r'.sh.outByte .rld a = if start ≤ a ∧ a < start + n then px (a - start) else r.sh.outByte .rld a

/-- A fault entry and nothing else (60_exceptions.md R318). Where a statement gives a whole unit after a fault, that its working
registers are kept is the model's choice within I20 (log 15). -/
def Shell.Faulted (sh : Shell) (e : ErrCode) (p : Word) : Shell :=
  { sh with err := e, errPos := p, flags := ⟨false, false, false⟩, state := .fault }

/-- A normal completion and nothing else (60_exceptions.md R330). Where a statement gives a whole unit after DONE, that its working
registers are kept is the model's choice within I20 (log 15). -/
def Shell.Completed (sh : Shell) (inRem short under : Bool) : Shell :=
  { sh with err := .none, flags := ⟨inRem, short, under⟩, state := .done }

/-- What a write of `n` pixels by an RLD command gives in a run (43_bmp_rle.md R264, R265, R269, R270, R272): the pixels,
or `E_BOUNDS` and nothing written. -/
def PixelWrite (i : Instr) (s : State) (n : Nat) (px : Nat → Byte) (len : Nat) : Prop :=
  (s.rld.y.toNat < s.rld.height → s.rld.x.toNat + n ≤ s.rld.width →
    ∃ t, exec i s = .next t ∧ t = { s with rld := t.rld } ∧ s.rld.Wrote t.rld n px len) ∧
    (s.rld.height ≤ s.rld.y.toNat ∨ s.rld.width < s.rld.x.toNat + n →
      exec i s = .next { s with rld := { s.rld with sh := s.rld.sh.Faulted .bounds s.rld.sh.inPos } })

/-- Two RLD units that differ in `FLIP` only, their canvases each other's with the rows in reverse order
(43_bmp_rle.md R276). -/
def Rld.Mirrors (r r' : Rld) : Prop :=
  r.flip = false ∧ r'.flip = true ∧ r'.mode4 = r.mode4 ∧
    r' = { r with sh := { r.sh with cfg2 := r'.sh.cfg2, outBuf := r'.sh.outBuf, outGen := r'.sh.outGen } } ∧
    ∀ x y, x < r.width → y < r.height →
      r'.sh.outByte .rld ((r.height - 1 - y) * r.width + x) = r.sh.outByte .rld (y * r.width + x)

end Sys2Proof.Machine
end

