-- ==== Sys2Proof/Certificates/Slice0/Obligations.lean ====
section
/-! DEFINITION. The statements for the provers, from the numbered rules of spec/. -/

open Sys2Proof Sys2Proof.Machine

/-! ### Encodings -/

/-- Decoding the encoding of any element that can stand in a context gives the element back, with every operand at every
value the encoding admits (30_encoding.md R101 to R116). -/
def Obligations.DecodeInvertsEncode : Prop :=
  ∀ (cx : Cx) (i : Instr), wf cx i = true → ∃ c, encode cx i = some c ∧ decode cx c = .ok i

/-- What a decoder accepts is well formed, and outside RLD (whose pad byte is ignored, 43_bmp_rle.md R271) is the encoding
of what it was decoded to: no code has two readings and no reading two codes. -/
def Obligations.EncodeInvertsDecode : Prop :=
  ∀ (cx : Cx) (c : Code) (i : Instr), (∀ x, cx = .lzw x → x.ok = true) → decode cx c = .ok i →
    wf cx i = true ∧ ((∀ m, cx ≠ .rle m) → encode cx i = some c)

/-- Every value of `(b0, b1)` selects exactly one RLD command, by the table of 30_encoding.md R103. -/
def Obligations.EveryBytePairIsACommand : Prop :=
  ∀ (m : Bool) (b0 b1 : Byte) (rest : List Byte), 256 ≤ rest.length →
    let cmd (i : Instr) (n : Nat) : Prop := decodeRle m (b0 :: b1 :: rest) = .ok (i, rest.drop n)
    let nb := if m then (b1.toNat + 1) / 2 else b1.toNat
    (b0 ≠ 0 → cmd (if m then .rle4Run b0 (b1.extractLsb' 4 4) (b1.extractLsb' 0 4) else .rle8Run b0 b1) 0) ∧
      (b0 = 0 → b1 = 0 → cmd .rleEol 0) ∧
      (b0 = 0 → b1 = 1 → cmd .rleEob 0) ∧
      (b0 = 0 → b1 = 2 → cmd (.rleDelta (rest.getD 0 0) (rest.getD 1 0)) 2) ∧
      (b0 = 0 → 3 ≤ b1.toNat →
        cmd (if m then .rle4Abs b1 (rest.take nb) else .rle8Abs b1 (rest.take nb)) (nb + nb % 2))

/-- The class of a code, by the table of 30_encoding.md R111. -/
def Obligations.CodeClasses : Prop :=
  ∀ (x : LzwCx) (c : BitVec 12), x.ok = true →
    let clear := 2 ^ x.n
    (c.toNat = clear → classify x c = .lzwClear) ∧
      (c.toNat = clear + 1 → classify x c = .lzwEoi) ∧
      (x.oldValid = false → c.toNat < clear → classify x c = .lzwLit c) ∧
      (x.oldValid = false → clear + 1 < c.toNat → classify x c = .lzwIllegal c) ∧
      (x.oldValid = true → (c.toNat < clear ∨ (clear + 2 ≤ c.toNat ∧ c.toNat < x.avail)) → classify x c = .lzwRef c) ∧
      (x.oldValid = true → c.toNat = x.avail → classify x c = .lzwKwk) ∧
      (x.oldValid = true → x.avail < c.toNat → classify x c = .lzwIllegal c)

/-- A few words, written out from the tables of 30_encoding.md and 42_g4_encoder.md, decode to their elements. -/
def Obligations.SampleWordsDecode : Prop :=
  decode (.scan 2) (.bytes [4, 7, 9]) = .ok (.ftPaeth [7, 9]) ∧
    decode (.rle true) (.bytes [0x00, 0x05, 0x12, 0x34, 0x50, 0x00]) = .ok (.rle4Abs 5 [0x12, 0x34, 0x50]) ∧
    decode (.rle false) (.bytes [0x00, 0x02, 0xFF, 0x01]) = .ok (.rleDelta 0xFF 0x01) ∧
    decode (.lzw ⟨2, false, 3, 6, true⟩) (.bits [false, true, true]) = .ok .lzwKwk ∧
    decode (.g4 .mode) (.bits [false, false, false, false, false, true, true]) = .ok .g4Vr3 ∧
    decode (.g4 .black) (.bits [false, false, false, false, false, false, true, true, true, true]) = .ok .g4Bm64 ∧
    decode (.cmd .rld) (.word 2) = .ok (.cmdClear .rld)

/-- 42_g4_encoder.md R243 (b), (c) and (e) of the printed tables: prefix-free, a 1 among the first eight bits of every run and
mode word, and the part of the code space the mode words use; the part each run table uses, which on the tables as printed is
255/256 and not what R243 (d) computes (log 14); and the run words' elements: 208 different ones, the element of the run word of a
colour and an index being the one whose code word stands at that index of that colour's table (30_encoding.md R114, R120). -/
def Obligations.CodeTableInvariants : Prop :=
  let used (t : List CodeWord) : Nat := (t.map fun w => 2 ^ (13 - w.len)).sum
  prefixFree printedWhiteTab = true ∧ prefixFree printedBlackTab = true ∧ prefixFree printedModeTab.modes = true ∧
    (∀ w ∈ printedWhiteTab ++ printedBlackTab ++ printedModeTab.modes, (w.bits.take 8).contains true = true) ∧
    (printedModeTab.eol.bits = List.replicate 11 false ++ [true]) ∧
    256 * used printedWhiteTab = 255 * 2 ^ 13 ∧ 256 * used printedBlackTab = 255 * 2 ^ 13 ∧
    64 * used printedModeTab.modes = 63 * 2 ^ 13 ∧
    (whiteInstrs ++ blackInstrs).length = 208 ∧ (whiteInstrs ++ blackInstrs).Nodup ∧
    (∀ i ∈ whiteInstrs ++ blackInstrs, ∃ w : RunWord, w.instr = some i) ∧
    ∀ w : RunWord, ∃ i, w.instr = some i ∧
      i.g4Index = some (match w.colour with | .white => .white | .black => .black, w.index.val)

/-! ### The step -/

/-- A step runs the decoded element: the agent whose turn it is (`takeTurn`, log 6) fetches at its cursor, decodes, and the
step is `exec` of the element in the state with the turn taken; LZD's fetch has moved the cursor before, a horizontal mode of G4E is
followed by the packing of its run words (log 5), the host's command has left the queue (log 7). -/
def Obligations.StepRunsDecodedElement : Prop :=
  (∀ (s s1 : State) (i : Instr) (bs : List Byte), s.takeTurn = (.unit .pfe, s1) → s1.pfe.sh.state = .busy →
      decodeScan s1.pfe.prb.toNat (s1.pfe.sh.window .pfe (1 + s1.pfe.prb.toNat)) = .ok (i, bs) → step s = exec i s1) ∧
    (∀ (s s1 : State) (i : Instr) (bs : List Byte), s.takeTurn = (.unit .rld, s1) → s1.rld.sh.state = .busy →
      decodeRle s1.rld.mode4 (s1.rld.sh.window .rld 258) = .ok (i, bs) → step s = exec i s1) ∧
    (∀ (s s1 : State) (l : Lzd), s.takeTurn = (.unit .lzd, s1) → s1.lzd.sh.state = .busy →
      s1.lzd.sh.outLen.toNat < s1.lzd.outMax → s1.lzd.fill 2 = (l, true) →
      step s = exec (classify l.take.2.cx l.take.1) { s1 with lzd := l.take.2 }) ∧
    (∀ s s1 : State, s.takeTurn = (.unit .g4e, s1) → s1.g4e.sh.state = .busy → s1.g4e.pend = [] → s1.g4e.inrow = true →
      s1.g4e.mode ≠ .g4H → step s = exec s1.g4e.mode s1) ∧
    (∀ s s1 t : State, s.takeTurn = (.unit .g4e, s1) → s1.g4e.sh.state = .busy → s1.g4e.pend = [] → s1.g4e.inrow = true →
      s1.g4e.mode = .g4H → exec .g4H s1 = .next t → t.g4e.sh.state = .busy → step s = drain t.g4e.pend t) ∧
    (∀ s s1 : State, s.takeTurn = (.unit .g4e, s1) → s1.g4e.sh.state = .busy → s1.g4e.pend = [] → s1.g4e.inrow = false →
      s1.g4e.row.toNat = s1.g4e.height → step s = exec .g4Eol s1) ∧
    (∀ (s s1 : State) (w : RunWord) (i : Instr) (t : State), s.takeTurn = (.unit .g4e, s1) → s1.g4e.sh.state = .busy →
      s1.g4e.pend = [w] → w.instr = some i → exec i { s1 with g4e := { s1.g4e with pend := [] } } = .next t →
      step s = .next t) ∧
    (∀ (s s1 : State) (u : UnitId) (v : Word) (i : Instr) (q : List HostAction), s.takeTurn = (.host, s1) →
      s1.hostQ = .write u 0 v :: q → decodeCmd u v = .ok i → step s = exec i { s1 with hostQ := q })

/-- The invariant of the machine (Safety.lean) holds after every step from every state that has it, and no step from such a
state stops the machine: the memories keep their canonical form and their bounds, reserved bits read 0, `ERR`, flags and `ERR_POS`
appear only in the states they belong to, cursors stay in their ranges, the string table stays a tree. -/
def Obligations.StepKeepsGood : Prop := ∀ s : State, s.Good → ∃ t, step s = .next t ∧ t.Good

/-- The invariant holds right after reset. -/
def Obligations.ResetIsGood : Prop := State.reset.Good

/-- 70_reset_and_hazards.md R350, R351: after reset every register of every unit reads 0, the interrupt outputs are low, a unit
that was BUSY is IDLE, and a START without configuration raises `E_CFG`; one reset for all four units. -/
def Obligations.ResetClearsRegisters : Prop :=
  ∀ (s : State) (u : UnitId),
    ∃ r, hostAct .hardReset s = .next r ∧
      (∀ i : BitVec 4, ∃ t, hostAct (.read u i) r = .next t ∧ t.busData = 0 ∧
        hostAct (.read u i) State.reset = .next { State.reset with busData := 0 }) ∧
      (r.shell u).state = .idle ∧ (r.shell u).irq = false ∧
      (∃ t, exec (.cmdStart u) r = .next t ∧ t.shell u = (r.shell u).Faulted .cfg 0) ∧
      ∃ t, exec (.cmdStart u) State.reset = .next t ∧ t.shell u = (State.reset.shell u).Faulted .cfg 0

/-! ### PFE -/

/-- `FT.NONE` (40_png_filter.md R145): the bytes are the raw bytes. -/
def Obligations.FtNone : Prop :=
  ∀ (s : State) (raw : List Byte), s.pfe.Running s.cfg → s.cfg.wf = true → raw.length = s.pfe.prb.toNat →
    decode (.scan raw.length) (.bytes (0 :: raw)) = .ok (.ftNone raw) ∧
      ∃ t, exec (.ftNone raw) s = .next t ∧ ∀ k < raw.length, t.pfe.currAt k = raw.getD k 0

/-- `FT.SUB` (40_png_filter.md R146): each byte plus the reconstructed byte `BPP` to its left, mod 256. -/
def Obligations.FtSub : Prop :=
  ∀ (s : State) (raw : List Byte), s.pfe.Running s.cfg → s.cfg.wf = true → raw.length = s.pfe.prb.toNat →
    decode (.scan raw.length) (.bytes (1 :: raw)) = .ok (.ftSub raw) ∧
      ∃ t, exec (.ftSub raw) s = .next t ∧
        ∀ k < raw.length,
          let a := if s.pfe.bpp ≤ k then (t.pfe.currAt (k - s.pfe.bpp)).toNat else 0
          (t.pfe.currAt k).toNat = ((raw.getD k 0).toNat + a) % 256

/-- `FT.UP` (40_png_filter.md R147): each byte plus the byte above, mod 256. -/
def Obligations.FtUp : Prop :=
  ∀ (s : State) (raw : List Byte), s.pfe.Running s.cfg → s.cfg.wf = true → raw.length = s.pfe.prb.toNat →
    decode (.scan raw.length) (.bytes (2 :: raw)) = .ok (.ftUp raw) ∧
      ∃ t, exec (.ftUp raw) s = .next t ∧
        ∀ k < raw.length, (t.pfe.currAt k).toNat = ((raw.getD k 0).toNat + (s.pfe.priorAt k).toNat) % 256

/-- `FT.AVG` (40_png_filter.md R148): each byte plus half the exact sum of the left and the upper byte, mod 256. -/
def Obligations.FtAvg : Prop :=
  ∀ (s : State) (raw : List Byte), s.pfe.Running s.cfg → s.cfg.wf = true → raw.length = s.pfe.prb.toNat →
    decode (.scan raw.length) (.bytes (3 :: raw)) = .ok (.ftAvg raw) ∧
      ∃ t, exec (.ftAvg raw) s = .next t ∧
        ∀ k < raw.length,
          let a := if s.pfe.bpp ≤ k then (t.pfe.currAt (k - s.pfe.bpp)).toNat else 0
          (t.pfe.currAt k).toNat = ((raw.getD k 0).toNat + (a + (s.pfe.priorAt k).toNat) / 2) % 256

/-- `FT.PAETH` (40_png_filter.md R149): each byte plus the Paeth predictor of its three neighbours, mod 256. -/
def Obligations.FtPaeth : Prop :=
  ∀ (s : State) (raw : List Byte), s.pfe.Running s.cfg → s.cfg.wf = true → raw.length = s.pfe.prb.toNat →
    decode (.scan raw.length) (.bytes (4 :: raw)) = .ok (.ftPaeth raw) ∧
      ∃ t, exec (.ftPaeth raw) s = .next t ∧
        ∀ k < raw.length,
          let a := if s.pfe.bpp ≤ k then (t.pfe.currAt (k - s.pfe.bpp)).toNat else 0
          let c := if s.pfe.bpp ≤ k then (s.pfe.priorAt (k - s.pfe.bpp)).toNat else 0
          ∃ v, PaethIs a (s.pfe.priorAt k).toNat c v ∧ (t.pfe.currAt k).toNat = ((raw.getD k 0).toNat + v) % 256

/-- What a scanline of any filter type changes besides `OUT` (40_png_filter.md R155, R154, R158), and that it changes
nothing else: the prior row, the cursor and the row; at a pass end the next non-empty pass with its dimensions and a zero prior row;
after the last one the end of the run. That the working registers stay so after DONE is the model's choice (log 15). -/
def Obligations.ScanlineMovesOn : Prop :=
  ∀ (s : State) (f : Filter) (raw : List Byte), s.pfe.Running s.cfg → s.cfg.wf = true → raw.length = s.pfe.prb.toNat →
    ∃ t, exec (f.instr raw) s = .next t ∧
      let p := s.pfe
      let q := t.pfe
      let n := p.prb.toNat
      let pos := p.sh.inPos.toNat + 1 + n
      let shell : Shell := { p.sh with outBuf := q.sh.outBuf, inPos := word pos }
      let laterFull (m : Nat) (g : PassGeom) : Prop := p.pass.toNat < m ∧ p.passes[m]? = some g ∧ p.passFull g = true
      (∀ k, n ≤ k → q.currAt k = p.currAt k) ∧
        (p.row.toNat + 1 < p.ph.toNat →
          t = { s with pfe := { p with curr := q.curr, prior := q.prior, row := word (p.row.toNat + 1), sh := shell } } ∧
            ∀ k, q.priorAt k = if k < n then q.currAt k else p.priorAt k) ∧
        (p.row.toNat + 1 = p.ph.toNat → ∀ m g, laterFull m g → (∀ m' g', laterFull m' g' → m ≤ m') →
          t = { s with pfe := { p with
            curr := q.curr
            prior := q.prior
            row := 0
            pass := BitVec.ofNat 4 m
            pw := word (p.passWidth g)
            ph := word (p.passHeight g)
            prb := word (p.passBytes g)
            sh := shell } } ∧
            ∀ k, q.priorAt k = if k < p.passBytes g then 0 else if k < n then q.currAt k else p.priorAt k) ∧
        (p.row.toNat + 1 = p.ph.toNat → (∀ m g, ¬laterFull m g) →
          t = { s with pfe := { p with
            curr := q.curr
            prior := q.prior
            row := word (p.row.toNat + 1)
            pass := BitVec.ofNat 4 p.passes.length
            sh := shell.Completed (decide ((word pos).toNat < p.sh.inLen.toNat)) false false } } ∧
            ∀ k, q.priorAt k = if k < n then q.currAt k else p.priorAt k)

/-- Placement without interlacing (40_png_filter.md R156): the scanline is image row `ROW`; no other cell of `OUT`
changes. That cells beyond the canvas keep their values at DONE is the model's choice (log 9). -/
def Obligations.PlacementNonInterlaced : Prop :=
  ∀ (s : State) (f : Filter) (raw : List Byte), s.pfe.Running s.cfg → s.cfg.wf = true → raw.length = s.pfe.prb.toNat →
    s.pfe.interlaced = false →
    ∃ t, exec (f.instr raw) s = .next t ∧ s.pfe.prb.toNat = s.pfe.rowBytes ∧
      ∀ a, t.pfe.sh.outByte .pfe a =
        if s.pfe.row.toNat * s.pfe.rowBytes ≤ a ∧ a < s.pfe.row.toNat * s.pfe.rowBytes + s.pfe.rowBytes
        then t.pfe.currAt (a - s.pfe.row.toNat * s.pfe.rowBytes) else s.pfe.sh.outByte .pfe a

/-- Placement with interlacing (40_png_filter.md R157), bit by bit: pixel `k` of the scanline of pass `(xo, yo, xs, ys)` goes
to column `xo + k * xs` of row `yo + ROW * ys`; no other bit of `OUT` changes. That cells beyond the canvas keep their values at
DONE is the model's choice (log 9). -/
def Obligations.PlacementInterlaced : Prop :=
  ∀ (s : State) (f : Filter) (raw : List Byte) (g : PassGeom), s.pfe.Running s.cfg → s.cfg.wf = true →
    raw.length = s.pfe.prb.toNat → s.pfe.interlaced = true → s.pfe.passes[s.pfe.pass.toNat]? = some g →
    ∃ t, exec (f.instr raw) s = .next t ∧
      let p := s.pfe
      let target (k j : Nat) : Nat :=
        8 * ((g.yo + p.row.toNat * g.ys) * p.rowBytes) + (g.xo + k * g.xs) * p.pixBits + j
      (∀ k j, k < p.pw.toNat → j < p.pixBits →
          bitAt (t.pfe.sh.outByte .pfe) (target k j) = bitAt t.pfe.currAt (k * p.pixBits + j)) ∧
        ∀ o, (∀ k j, k < p.pw.toNat → j < p.pixBits → o ≠ target k j) →
          bitAt (t.pfe.sh.outByte .pfe) o = bitAt (p.sh.outByte .pfe) o

/-- The passes partition the image, and the dimensions of a pass count its pixels (40_png_filter.md R152, R153). -/
def Obligations.PassesPartitionTheImage : Prop :=
  ∀ p : Pfe,
    (p.interlaced = true → p.passes =
      [⟨0, 0, 8, 8⟩, ⟨4, 0, 8, 8⟩, ⟨0, 4, 4, 8⟩, ⟨2, 0, 4, 4⟩, ⟨0, 2, 2, 4⟩, ⟨1, 0, 2, 2⟩, ⟨0, 1, 1, 2⟩]) ∧
      (p.interlaced = false → p.passes = [⟨0, 0, 1, 1⟩]) ∧
      (∀ x y, x < p.width → y < p.height →
        ∃! n : Nat, ∃ g, p.passes[n]? = some g ∧ (∃ k < p.passWidth g, x = g.xo + k * g.xs) ∧
          ∃ j < p.passHeight g, y = g.yo + j * g.ys) ∧
      ∀ g ∈ p.passes,
        (∀ k, k < p.passWidth g ↔ g.xo + k * g.xs < p.width) ∧
          (∀ j, j < p.passHeight g ↔ g.yo + j * g.ys < p.height) ∧
          p.passBytes g = (p.passWidth g * p.pixBits + 7) / 8

/-- The faults of a scanline step, in their order (40_png_filter.md R151, R155; 60_exceptions.md R313, R320): nothing but
the status fields changes. -/
def Obligations.ScanlineFaults : Prop :=
  ∀ s : State, s.pfe.sh.state = .busy →
    let sh := s.pfe.sh
    let p := sh.inPos.toNat
    let faults (e : ErrCode) : Prop :=
      unitStep .pfe s = .next { s with pfe := { s.pfe with sh := sh.Faulted e sh.inPos } }
    (sh.inLen.toNat ≤ p → faults .trunc) ∧
      (p < sh.inLen.toNat → 4 < (sh.inByte .pfe p).toNat → faults .filter) ∧
      (p < sh.inLen.toNat → (sh.inByte .pfe p).toNat ≤ 4 → sh.inLen.toNat < p + 1 + s.pfe.prb.toNat → faults .trunc)

/-! ### LZD -/

/-- The fetch of a code takes the next `CODE_SIZE` bits of the stream, in the variant's bit order (30_encoding.md R109,
R110; 41_lzw.md R183, R184), and only the bit buffer and the cursor change; where too few bits are left the input is exhausted
(R185). -/
def Obligations.FetchTakesTheNextBits : Prop :=
  ∀ s : State, s.lzd.Running s.cfg → s.cfg.wf = true → s.lzd.sh.inPos.toNat ≤ s.lzd.sh.inLen.toNat →
    let l := s.lzd
    let w := l.codeSize.toNat
    let bits := (l.stream.drop l.bitPos).take w
    (l.bitPos + w ≤ 8 * l.sh.inLen.toNat →
      ∃ l' e, l.fill 2 = (l', true) ∧ l'.take.2 = e ∧
        l'.take.1.toNat = (if l.tiff then msbValue bits else lsbValue bits) ∧
        e = { l with datum := e.datum, nbits := e.nbits, sh := { l.sh with inPos := e.sh.inPos } } ∧
        e.bitPos = l.bitPos + w ∧ e.sh.inPos.toNat ≤ l.sh.inLen.toNat ∧ e.nbits.toNat < 8 ∧
        decodeLzw l.cx (l.stream.drop l.bitPos) = .ok (classify e.cx l'.take.1, e.stream.drop e.bitPos)) ∧
      (8 * l.sh.inLen.toNat < l.bitPos + w →
        (∃ l', l.fill 2 = (l', false) ∧
          l' = { l with datum := l'.datum, nbits := l'.nbits, sh := { l.sh with inPos := l.sh.inLen } }) ∧
        decodeLzw l.cx (l.stream.drop l.bitPos) = .error .truncated)

/-- LZD ends at the output limit before any fetch, and when the input runs out, with the flags of 41_lzw.md R185, R186,
R200. That at DONE the working registers keep their values, and the cells of `OUT` past `OUT_LEN` theirs, is the model's choice
(log 15, where 93_implementation_defined.md I20 allows any value; log 9). -/
def Obligations.LzdEnds : Prop :=
  ∀ s : State, s.lzd.sh.state = .busy →
    let l := s.lzd
    (l.outMax ≤ l.sh.outLen.toNat →
      unitStep .lzd s =
        .next { s with lzd := { l with
          sh := l.sh.Completed (decide (l.sh.inPos.toNat < l.sh.inLen.toNat)) false
            (decide (l.sh.outLen.toNat < l.outMax)) } }) ∧
      (l.sh.outLen.toNat < l.outMax → l.Running s.cfg → s.cfg.wf = true → l.sh.inPos.toNat ≤ l.sh.inLen.toNat →
        8 * l.sh.inLen.toNat < l.bitPos + l.codeSize.toNat →
        ∃ t, unitStep .lzd s = .next t ∧
          t = { s with lzd := { l with
            datum := t.lzd.datum
            nbits := t.lzd.nbits
            sh := { l.sh with inPos := l.sh.inLen }.Completed false true true } })

/-- `LZW.CLEAR` (41_lzw.md R188), `LZW.EOI` (R189, R200) and the illegal class (R195, 60_exceptions.md R315): what each
changes, and nothing else; the fault `E_LZW_CODE` stands at the position after the fetch. That the working registers stay so
after the end and after the fault, and the cells of `OUT` past `OUT_LEN` after the end, is the model's choice (log 15, log 9). -/
def Obligations.LzwControlCodes : Prop :=
  ∀ (s : State) (c : BitVec 12),
    (∃ t, exec .lzwClear s = .next t ∧
      t = { s with lzd := { s.lzd with codeSize := t.lzd.codeSize, avail := t.lzd.avail, oldValid := false } } ∧
      (s.lzd.depth ≤ 8 → t.lzd.codeSize.toNat = s.lzd.depth + 1 ∧ t.lzd.avail.toNat = 2 ^ s.lzd.depth + 2)) ∧
      exec .lzwEoi s =
        .next { s with lzd := { s.lzd with
          sh := s.lzd.sh.Completed (decide (s.lzd.sh.inPos.toNat < s.lzd.sh.inLen.toNat)) false
            (decide (s.lzd.sh.outLen.toNat < s.lzd.outMax)) } } ∧
      exec (.lzwIllegal c) s =
        .next { s with lzd := { s.lzd with sh := s.lzd.sh.Faulted .lzwCode s.lzd.sh.inPos } }

/-- `LZW.LIT c` (41_lzw.md R190, R197). -/
def Obligations.LzwLit : Prop :=
  ∀ (s : State) (c : BitVec 12), s.lzd.Running s.cfg → s.cfg.wf = true → c.toNat < 2 ^ s.lzd.depth →
    ∃ t, exec (.lzwLit c) s = .next t ∧
      t = { s with lzd := { s.lzd with first := c.setWidth 8, old := c, oldValid := true, sh := t.lzd.sh } } ∧
      s.lzd.Appended t.lzd [BitVec.ofNat 8 c.toNat]

/-- `LZW.REF c` (41_lzw.md R191, R193, R194, R197). -/
def Obligations.LzwRef : Prop :=
  ∀ (s : State) (c : BitVec 12), s.lzd.Running s.cfg → s.cfg.wf = true → s.lzd.oldValid = true →
    (c.toNat < 2 ^ s.lzd.depth ∨ (2 ^ s.lzd.depth + 2 ≤ c.toNat ∧ c.toNat < s.lzd.avail.toNat)) →
    ∃ f str t, s.lzd.expand c.toNat = some (f :: str) ∧ exec (.lzwRef c) s = .next t ∧
      t = { s with lzd := { s.lzd with
        first := f
        old := c
        avail := t.lzd.avail
        codeSize := t.lzd.codeSize
        prefixTab := t.lzd.prefixTab
        suffixTab := t.lzd.suffixTab
        sh := t.lzd.sh } } ∧
      s.lzd.Appended t.lzd (f :: str) ∧ s.lzd.Added t.lzd s.lzd.old f

/-- `LZW.KWK` (41_lzw.md R192, R193, R197): the string of the previous code and its first byte, and the entry of that
string, which is the code's own. -/
def Obligations.LzwKwk : Prop :=
  ∀ s : State, s.lzd.Running s.cfg → s.cfg.wf = true → s.lzd.oldValid = true → s.lzd.avail.toNat < 4096 →
    ∃ f str t, s.lzd.expand s.lzd.old.toNat = some (f :: str) ∧ f = s.lzd.first ∧ exec .lzwKwk s = .next t ∧
      t = { s with lzd := { s.lzd with
        first := f
        old := BitVec.ofNat 12 s.lzd.avail.toNat
        avail := t.lzd.avail
        codeSize := t.lzd.codeSize
        prefixTab := t.lzd.prefixTab
        suffixTab := t.lzd.suffixTab
        sh := t.lzd.sh } } ∧
      s.lzd.Appended t.lzd (f :: str ++ [s.lzd.first]) ∧ s.lzd.Added t.lzd s.lzd.old f ∧
      t.lzd.expand s.lzd.avail.toNat = some (f :: str ++ [f])

/-- Strings (41_lzw.md R196): every code that has one has the string of its prefix and its suffix, the prefix is an earlier
code, and the string is no longer than the rule says. -/
def Obligations.StringsFollowTheChain : Prop :=
  ∀ (cfg : Config) (l : Lzd) (k : Nat), l.Running cfg →
    (k < 2 ^ l.depth → l.expand k = some [BitVec.ofNat 8 k]) ∧
      (2 ^ l.depth + 2 ≤ k → k < l.avail.toNat →
        (l.prefixAt k).toNat < k ∧ (l.prefixAt k).toNat ≠ 2 ^ l.depth ∧ (l.prefixAt k).toNat ≠ 2 ^ l.depth + 1 ∧
          ∃ str, l.expand (l.prefixAt k).toNat = some str ∧ l.expand k = some (str ++ [l.suffixAt k]) ∧
            str.length + 1 ≤ k - (2 ^ l.depth + 2) + 2)

/-! ### G4E -/

/-- `putbits` (42_g4_encoder.md R235, R239): the bits of the word follow those already sent, most significant first; where
the bytes they complete do not fit, `E_OVF` with `OUT` full. -/
def Obligations.PutbitsAppends : Prop :=
  ∀ (cfg : Config) (g : G4e) (c : CodeWord), g.PackerOk → c.ok = true → cfg.wf = true → g.sh.outLen.toNat ≤ cfg.maxOut →
    (g.Room cfg c.len →
      ∃ g', g.putbits cfg c = .ok g' ∧ g' = { g with acc := g'.acc, free := g'.free, sh := g'.sh } ∧ g.Packed g' c.bits) ∧
      (¬g.Room cfg c.len →
        ∃ g', g.putbits cfg c = .error g' ∧ g' = { g with acc := g'.acc, free := g'.free, sh := g'.sh } ∧
          g.Overflowed cfg g')

/-- Each of the 208 run words `G4.WT<t>`, `G4.WM<r>`, `G4.BT<t>`, `G4.BM<r>` sends its word of the instance's table and does
nothing else (42_g4_encoder.md R234, R235, R241, R242; 30_encoding.md R114). The element of every run word is named by
`RunWord.instr`; `CodeTableInvariants` says that these are all 208. -/
def Obligations.RunWordsSendTheirCode : Prop :=
  ∀ (s : State) (w : RunWord) (i : Instr), w.instr = some i → s.cfg.wf = true → s.g4e.PackerOk →
    s.g4e.sh.outLen.toNat ≤ s.cfg.maxOut →
    ∃ c, (match w.colour with | .white => s.cfg.whiteTab | .black => s.cfg.blackTab)[w.index.val]? = some c ∧
      (s.g4e.Room s.cfg c.len →
        ∃ g', exec i s = .next { s with g4e := g' } ∧
          g' = { s.g4e with acc := g'.acc, free := g'.free, sh := g'.sh } ∧ s.g4e.Packed g' c.bits) ∧
      (¬s.g4e.Room s.cfg c.len →
        ∃ g', exec i s = .next { s with g4e := g' } ∧
          g' = { s.g4e with acc := g'.acc, free := g'.free, sh := g'.sh } ∧ s.g4e.Overflowed s.cfg g')

/-- The modes of a mode step (42_g4_encoder.md R230, R227, R232): pass before vertical before horizontal, the vertical word
by `d = B1 - A1`. -/
def Obligations.ModeChoice : Prop :=
  ∀ g : G4e,
    let b2 := finddiff2 g.refPixel g.b1.toNat g.width (g.refPixel g.b1.toNat)
    let d : Int := (g.b1.toNat : Int) - g.a1.toNat
    (b2 < g.a1.toNat → g.mode = .g4P) ∧
      (g.a1.toNat ≤ b2 → |d| ≤ 3 →
        [Instr.g4Vr3, .g4Vr2, .g4Vr1, .g4V0, .g4Vl1, .g4Vl2, .g4Vl3][(d + 3).toNat]? = some g.mode) ∧
      (g.a1.toNat ≤ b2 → 3 < |d| → g.mode = .g4H)

/-- `G4.P` (42_g4_encoder.md R231, R229): the word is sent, `A0` goes to `b2`, then row end or advance; where the word does not fit,
the element takes `E_OVF` instead (R239). -/
def Obligations.PassMode : Prop :=
  ∀ s : State, s.g4e.Running s.cfg → s.cfg.wf = true → s.g4e.inrow = true →
    ∃ g', exec .g4P s = .next { s with g4e := g' } ∧
      (s.g4e.Room s.cfg s.cfg.modeTab.pass.len →
        s.g4e.Coded g' s.cfg.modeTab.pass.bits
          (finddiff2 s.g4e.refPixel s.g4e.b1.toNat s.g4e.width (s.g4e.refPixel s.g4e.b1.toNat)) []) ∧
      (¬s.g4e.Room s.cfg s.cfg.modeTab.pass.len → s.g4e.Overflowed s.cfg g')

/-- `G4.V(d)`, all seven (42_g4_encoder.md R232, R229, R236): `G4.VR3`, `G4.VR2`, `G4.VR1`, `G4.V0`, `G4.VL1`, `G4.VL2`,
`G4.VL3`. The word is sent, `A0` goes to `A1`, then the row ends or advances; where the word does not fit, the element takes
`E_OVF` instead (R239). -/
def Obligations.VerticalModes : Prop :=
  ∀ (s : State) (i : Instr) (c : CodeWord), s.g4e.Running s.cfg → s.cfg.wf = true → s.g4e.inrow = true →
    let t := s.cfg.modeTab
    (i, c) ∈ [(Instr.g4Vr3, t.vr3), (.g4Vr2, t.vr2), (.g4Vr1, t.vr1), (.g4V0, t.v0), (.g4Vl1, t.vl1), (.g4Vl2, t.vl2),
      (.g4Vl3, t.vl3)] →
    ∃ g', exec i s = .next { s with g4e := g' } ∧
      (s.g4e.Room s.cfg c.len → s.g4e.Coded g' c.bits s.g4e.a1.toNat []) ∧
      (¬s.g4e.Room s.cfg c.len → s.g4e.Overflowed s.cfg g')

/-- `G4.H` (42_g4_encoder.md R233): the prefix is sent, `A0` goes to `a2`, and the run words of the two spans are due (that the
same step sends them after this, and not `exec` itself, is the model's choice, log 5); where the prefix does not fit, the element
takes `E_OVF` instead (R239). -/
def Obligations.HorizontalMode : Prop :=
  ∀ s : State, s.g4e.Running s.cfg → s.cfg.wf = true → s.g4e.inrow = true →
    ∃ g' ws, exec .g4H s = .next { s with g4e := g' } ∧ s.g4e.RunsAre ws ∧
      (s.g4e.Room s.cfg s.cfg.modeTab.horiz.len →
        s.g4e.Coded g' s.cfg.modeTab.horiz.bits
          (finddiff2 s.g4e.curPixel s.g4e.a1.toNat s.g4e.width (s.g4e.curPixel s.g4e.a1.toNat)) ws) ∧
      (¬s.g4e.Room s.cfg s.cfg.modeTab.horiz.len → s.g4e.Overflowed s.cfg g')

/-- A whole horizontal step of the unit (42_g4_encoder.md R233, R234, R239): the prefix and all run words of the two spans
are sent in order, or the unit overflows. -/
def Obligations.HorizontalStep : Prop :=
  ∀ (s : State) (ws : List RunWord), s.g4e.Running s.cfg → s.cfg.wf = true → s.g4e.sh.state = .busy → s.g4e.inrow = true →
    s.g4e.mode = .g4H → s.g4e.RunsAre ws →
    let bits := s.cfg.modeTab.horiz.bits ++ runBits s.cfg ws
    ∃ g', unitStep .g4e s = .next { s with g4e := g' } ∧
      (s.g4e.Room s.cfg bits.length →
        s.g4e.Coded g' bits
          (finddiff2 s.g4e.curPixel s.g4e.a1.toNat s.g4e.width (s.g4e.curPixel s.g4e.a1.toNat)) []) ∧
      (¬s.g4e.Room s.cfg bits.length → s.g4e.Overflowed s.cfg g')

/-- The words of a run (42_g4_encoder.md R234, 30_encoding.md R114): 2560 as long as 2624 or more remain, then one makeup
word for 64 or more, then exactly one terminating word; and their lengths add up to the run. -/
def Obligations.RunWordsOfASpan : Prop :=
  ∀ (c : Colour) (n : Nat),
    (2624 ≤ n → runWords c n = ⟨c, 103⟩ :: runWords c (n - 2560)) ∧
      (64 ≤ n → n < 2624 → runWords c n = [⟨c, Fin.ofNat 104 (63 + n / 64)⟩, ⟨c, Fin.ofNat 104 (n % 64)⟩]) ∧
      (n < 64 → runWords c n = [⟨c, Fin.ofNat 104 n⟩]) ∧
      ((runWords c n).map fun w => if w.index.val ≤ 63 then w.index.val else 64 * (w.index.val - 63)).sum = n

/-- The row-open step (42_g4_encoder.md R230, R226, R238). -/
def Obligations.RowOpen : Prop :=
  ∀ s : State, s.g4e.Running s.cfg → s.cfg.wf = true → s.g4e.sh.state = .busy → s.g4e.inrow = false →
    s.g4e.row.toNat < s.g4e.height →
    let g := s.g4e
    let p := g.sh.inPos.toNat
    (g.sh.inLen.toNat < p + g.rowBytes →
      unitStep .g4e s = .next { s with g4e := { g with sh := g.sh.Faulted .trunc g.sh.inPos } }) ∧
      (p + g.rowBytes ≤ g.sh.inLen.toNat →
        ∃ g', unitStep .g4e s = .next { s with g4e := g' } ∧
          g' = { g with
            cur := g'.cur
            a0 := 0
            a1 := g'.a1
            b1 := g'.b1
            inrow := true
            sh := { g.sh with inPos := word (p + g.rowBytes) } } ∧
          (∀ k, cell .cur g.sh.inGen g'.cur k =
            if k < g.rowBytes then g.sh.inByte .g4e (p + k) else cell .cur g.sh.inGen g.cur k) ∧
          g'.a1.toNat = (if g'.curPixel 0 then 0 else finddiff g'.curPixel 0 g.width false) ∧
          g'.b1.toNat = (if g'.refPixel 0 then 0 else finddiff g'.refPixel 0 g.width false))

/-- `G4.EOL`, the end step `EOFB` (42_g4_encoder.md R237, 30_encoding.md R115): two `000000000001`, zero bits to the byte
boundary, the end of the run; `E_OVF` where that does not fit. Two clauses rest on the model's choice: that the element
`G4.EOL` is the whole end of block, where 30_encoding.md R120 has the row stand for one word of it (log 5), and that the cells of
`OUT` past `OUT_LEN` (log 9) and the working registers but `ACC` and `FREE` (log 15) keep their values at DONE. -/
def Obligations.EndOfBlock : Prop :=
  ∀ s : State, s.g4e.PackerOk → s.cfg.wf = true → s.g4e.sh.outLen.toNat ≤ s.cfg.maxOut →
    let g := s.g4e
    let eol := List.replicate 11 false ++ [true]
    let bytes := (8 - g.free.toNat + 24 + 7) / 8
    (g.sh.outLen.toNat + bytes ≤ s.cfg.maxOut →
      ∃ g' n, exec .g4Eol s = .next { s with g4e := g' } ∧
        g' = { g with
          acc := 0
          free := 8
          sh := ({ g.sh with outBuf := g'.sh.outBuf, outLen := word (g.sh.outLen.toNat + bytes) } : Shell).Completed
            (decide (g.sh.inPos.toNat < g.sh.inLen.toNat)) false false } ∧
        n < 8 ∧ g'.sent = g.sent ++ eol ++ eol ++ List.replicate n false ∧
        ∀ a, a < g.sh.outLen.toNat ∨ g'.sh.outLen.toNat ≤ a → g'.sh.outByte .g4e a = g.sh.outByte .g4e a) ∧
      (s.cfg.maxOut < g.sh.outLen.toNat + bytes →
        ∃ g', exec .g4Eol s = .next { s with g4e := g' } ∧
          g' = { g with acc := g'.acc, free := g'.free, sh := g'.sh } ∧ g.Overflowed s.cfg g')

/-- Span finding (42_g4_encoder.md R224, R225): `finddiff` is the least position from `bs` on, below `be`, whose pixel is not
of colour `k`, or `be` if there is none; the byte-wise span finder over the tables `ZERORUNS` and `ONERUNS` returns the same
spans. -/
def Obligations.SpanFinders : Prop :=
  (∀ (pix : Nat → Bool) (bs be : Nat) (k : Bool),
    let r := finddiff pix bs be k
    (be ≤ bs → r = bs ∧ finddiff2 pix bs be k = be) ∧
      (bs < be → bs ≤ r ∧ r ≤ be ∧ finddiff2 pix bs be k = r ∧ (∀ x, bs ≤ x → x < r → pix x = k) ∧
        (r < be → pix r ≠ k))) ∧
    (∀ v : Byte, oneRuns v = zeroRuns (v ^^^ 0xFF)) ∧
    ∀ (byteAt : Nat → Byte) (width bs be : Nat), bs ≤ be → be ≤ width →
      fastSpan zeroRuns byteAt bs be = find0span (pixel byteAt width) bs be ∧
        fastSpan oneRuns byteAt bs be = find1span (pixel byteAt width) bs be

/-- The pad bits of a row have no effect (42_g4_encoder.md R223, R236): two machines whose coding and reference lines show
the same pixels take the same mode step, and their lines show the same pixels afterwards. -/
def Obligations.PadBitsHaveNoEffect : Prop :=
  ∀ (s s' : State) (cur ref : Mem 8), s' = { s with g4e := { s.g4e with cur := cur, ref := ref } } →
    s.g4e.Running s.cfg → s.cfg.wf = true → s.g4e.sh.state = .busy → s.g4e.inrow = true →
    s'.g4e.curPixel = s.g4e.curPixel → s'.g4e.refPixel = s.g4e.refPixel →
    ∃ t t', unitStep .g4e s = .next t ∧ unitStep .g4e s' = .next t' ∧
      t' = { t with g4e := { t.g4e with cur := t'.g4e.cur, ref := t'.g4e.ref } } ∧
      t'.g4e.curPixel = t.g4e.curPixel ∧ t'.g4e.refPixel = t.g4e.refPixel

/-! ### RLD -/

/-- `RLE8.RUN n, v` (43_bmp_rle.md R264) and `RLE4.RUN n, v` (R265, the two nibbles in turn, the high one first), with the
bounds check and the placement of R272. -/
def Obligations.EncodedRuns : Prop :=
  ∀ (s : State) (n v : Byte) (h l : BitVec 4), s.rld.Running s.cfg → s.cfg.wf = true →
    PixelWrite (.rle8Run n v) s n.toNat (fun _ => v) 2 ∧
      PixelWrite (.rle4Run n h l) s n.toNat (fun i => BitVec.ofNat 8 (if i % 2 = 0 then h.toNat else l.toNat)) 2

/-- `RLE8.ABS n` (43_bmp_rle.md R269) and `RLE4.ABS n` (R270, two pixels a byte, the high nibble first), with the pad of R271
and the bounds check and the placement of R272. -/
def Obligations.AbsoluteRuns : Prop :=
  ∀ (s : State) (n : Byte) (d : List Byte), s.rld.Running s.cfg → s.cfg.wf = true →
    let nb := (n.toNat + 1) / 2
    let nibble (i : Nat) : Byte := if i % 2 = 0 then d.getD (i / 2) 0 >>> 4 else d.getD (i / 2) 0 &&& 15
    (d.length = n.toNat →
      PixelWrite (.rle8Abs n d) s n.toNat (fun i => d.getD i 0) (2 + n.toNat + n.toNat % 2)) ∧
      (d.length = nb → PixelWrite (.rle4Abs n d) s n.toNat nibble (2 + nb + nb % 2))

/-- `RLE.EOL`, `RLE.EOB` and `RLE.DELTA dx, dy` (43_bmp_rle.md R266, R267, R268): what each changes, and nothing else. That `X`
and `Y` (log 15) and the cells of `OUT` beyond the canvas (log 9) keep their values at the end of the run is the model's choice. -/
def Obligations.RleMoves : Prop :=
  ∀ (s : State) (dx dy : Byte),
    let r := s.rld
    let p := r.sh.inPos.toNat
    exec .rleEol s =
      .next { s with rld := { r with x := 0, y := word (r.y.toNat + 1), sh := { r.sh with inPos := word (p + 2) } } } ∧
      exec .rleEob s =
        .next { s with rld := { r with
          sh := ({ r.sh with inPos := word (p + 2) } : Shell).Completed
            (decide ((word (p + 2)).toNat < r.sh.inLen.toNat)) false false } } ∧
      exec (.rleDelta dx dy) s =
        .next { s with rld := { r with
          x := word (r.x.toNat + dx.toNat)
          y := word (r.y.toNat + dy.toNat)
          sh := { r.sh with inPos := word (p + 4) } } }

/-- The truncations of RLD (43_bmp_rle.md R263, R268, R269, R270; 60_exceptions.md R314, R320): `E_TRUNC` at the command's
first byte and nothing else, before any check of the canvas bounds. -/
def Obligations.RldTruncations : Prop :=
  ∀ s : State, s.rld.sh.state = .busy →
    let sh := s.rld.sh
    let p := sh.inPos.toNat
    let inAt (k : Nat) : Byte := sh.inByte .rld (p + k)
    let n := (inAt 1).toNat
    let nb := if s.rld.mode4 then (n + 1) / 2 else n
    let faults : Prop := unitStep .rld s = .next { s with rld := { s.rld with sh := sh.Faulted .trunc sh.inPos } }
    (sh.inLen.toNat ≤ p + 1 → faults) ∧
      (p + 1 < sh.inLen.toNat → inAt 0 = 0 → inAt 1 = 2 → sh.inLen.toNat ≤ p + 3 → faults) ∧
      (p + 1 < sh.inLen.toNat → inAt 0 = 0 → 3 ≤ n → sh.inLen.toNat < p + 2 + nb + nb % 2 → faults)

/-- The row-order property (43_bmp_rle.md R276): two machines that differ in `FLIP` run the same commands, and their
canvases stay each other's with the rows reversed, after any number of turns. -/
def Obligations.FlipReversesTheRows : Prop :=
  ∀ (s s' : State) (n : Nat), s.cfg.wf = true → s.cfg = s'.cfg → s.rld.Running s.cfg → s.rld.Mirrors s'.rld →
    s.rld.sh.inPos.toNat ≤ s.rld.sh.inLen.toNat →
    ∃ t t', runTurns (List.replicate n .rld) s = .next t ∧ runTurns (List.replicate n .rld) s' = .next t' ∧
      t.rld.Mirrors t'.rld

/-! ### The host -/

/-- `CMD.START` to PFE (44_host_commands.md R292; 60_exceptions.md R312; 40_png_filter.md R141, R143, R159). -/
def Obligations.StartPfe : Prop :=
  ∀ s : State, s.cfg.wf = true →
    let p := s.pfe
    let sh := { p.sh with errPos := 0, err := .none, flags := ⟨false, false, false⟩, inPos := 0, outLen := 0 }
    let ch := if p.colorType = 2 then 3 else if p.colorType = 4 then 2 else if p.colorType = 6 then 4 else 1
    let rowBytes := (p.width * (ch * p.depth) + 7) / 8
    let size := rowBytes * p.height
    let legal : Prop :=
      p.sh.inLen.toNat ≤ s.cfg.maxIn ∧ 1 ≤ p.width ∧ p.width ≤ s.cfg.maxW ∧ 1 ≤ p.height ∧ p.height ≤ s.cfg.maxH ∧
        ((p.colorType = 0 ∧ p.depth ∈ [1, 2, 4, 8, 16]) ∨ (p.colorType = 3 ∧ p.depth ∈ [1, 2, 4, 8]) ∨
          (p.colorType ∈ [2, 4, 6] ∧ p.depth ∈ [8, 16])) ∧
        size ≤ s.cfg.maxOut
    (p.sh.state ≠ .idle → exec (.cmdStart .pfe) s = .next s) ∧
      (p.sh.state = .idle → ¬legal →
        exec (.cmdStart .pfe) s = .next { s with pfe := { p with sh := sh.Faulted .cfg 0 } }) ∧
      (p.sh.state = .idle → legal →
        ∃ q g, exec (.cmdStart .pfe) s = .next { s with pfe := q } ∧ p.passes[0]? = some g ∧
          q = { p with
            sh := { sh with state := .busy, outLen := word size, outBuf := q.sh.outBuf }
            pass := 0
            row := 0
            pw := word (p.passWidth g)
            ph := word (p.passHeight g)
            prb := word (p.passBytes g)
            prior := q.prior } ∧
          (∀ a, q.sh.outByte .pfe a = if a < size then 0 else p.sh.outByte .pfe a) ∧
          ∀ k, q.priorAt k = if k < p.passBytes g then 0 else p.priorAt k)

/-- `CMD.START` to LZD (44_host_commands.md R292; 60_exceptions.md R312; 41_lzw.md R181, R182). -/
def Obligations.StartLzd : Prop :=
  ∀ s : State,
    let l := s.lzd
    let sh := { l.sh with errPos := 0, err := .none, flags := ⟨false, false, false⟩, inPos := 0, outLen := 0 }
    let legal : Prop :=
      l.sh.inLen.toNat ≤ s.cfg.maxIn ∧ l.outMax ≤ s.cfg.maxOut ∧
        ((l.tiff = false ∧ 2 ≤ l.depth ∧ l.depth ≤ 8) ∨ (l.tiff = true ∧ l.depth = 8 ∧ s.cfg.hasTiffLzw = true))
    (l.sh.state ≠ .idle → exec (.cmdStart .lzd) s = .next s) ∧
      (l.sh.state = .idle → ¬legal →
        exec (.cmdStart .lzd) s = .next { s with lzd := { l with sh := sh.Faulted .cfg 0 } }) ∧
      (l.sh.state = .idle → legal →
        ∃ m, exec (.cmdStart .lzd) s = .next { s with lzd := m } ∧
          m = { l with
            sh := { sh with state := .busy }
            codeSize := m.codeSize
            avail := m.avail
            oldValid := false
            datum := 0
            nbits := 0 } ∧
          m.codeSize.toNat = l.depth + 1 ∧ m.avail.toNat = 2 ^ l.depth + 2)

/-- `CMD.START` to G4E (44_host_commands.md R292; 60_exceptions.md R312; 42_g4_encoder.md R221, R222). -/
def Obligations.StartG4e : Prop :=
  ∀ s : State,
    let g := s.g4e
    let sh := { g.sh with errPos := 0, err := .none, flags := ⟨false, false, false⟩, inPos := 0, outLen := 0 }
    let rb := (g.width + 7) / 8
    let legal : Prop :=
      g.sh.inLen.toNat ≤ s.cfg.maxIn ∧ 1 ≤ g.width ∧ g.width ≤ s.cfg.maxW ∧ g.height ≤ s.cfg.maxH ∧
        rb * g.height ≤ s.cfg.maxIn
    (g.sh.state ≠ .idle → exec (.cmdStart .g4e) s = .next s) ∧
      (g.sh.state = .idle → ¬legal →
        exec (.cmdStart .g4e) s = .next { s with g4e := { g with sh := sh.Faulted .cfg 0 } }) ∧
      (g.sh.state = .idle → legal →
        ∃ h, exec (.cmdStart .g4e) s = .next { s with g4e := h } ∧
          h = { g with
            sh := { sh with state := .busy }
            row := 0
            inrow := false
            acc := 0
            free := 8
            pend := []
            ref := h.ref } ∧
          ∀ k, cell .ref g.sh.inGen h.ref k = if k < rb then 0 else cell .ref g.sh.inGen g.ref k)

/-- `CMD.START` to RLD (44_host_commands.md R292; 60_exceptions.md R312; 43_bmp_rle.md R261, R262). -/
def Obligations.StartRld : Prop :=
  ∀ s : State,
    let r := s.rld
    let sh := { r.sh with errPos := 0, err := .none, flags := ⟨false, false, false⟩, inPos := 0, outLen := 0 }
    let size := r.width * r.height
    let legal : Prop :=
      r.sh.inLen.toNat ≤ s.cfg.maxIn ∧ 1 ≤ r.width ∧ r.width ≤ s.cfg.maxW ∧ 1 ≤ r.height ∧ r.height ≤ s.cfg.maxH ∧
        size ≤ s.cfg.maxOut
    (r.sh.state ≠ .idle → exec (.cmdStart .rld) s = .next s) ∧
      (r.sh.state = .idle → ¬legal →
        exec (.cmdStart .rld) s = .next { s with rld := { r with sh := sh.Faulted .cfg 0 } }) ∧
      (r.sh.state = .idle → legal →
        ∃ q, exec (.cmdStart .rld) s = .next { s with rld := q } ∧
          q = { r with
            sh := { sh with state := .busy, outLen := word size, outBuf := q.sh.outBuf }
            x := 0
            y := 0 } ∧
          ∀ a, q.sh.outByte .rld a = if a < size then 0 else r.sh.outByte .rld a)

/-- `CMD.CLEAR` (44_host_commands.md R293, 60_exceptions.md R323) and the reserved `CTRL` values (R294): CLEAR has no effect while
BUSY, else it clears the status fields and keeps everything else, `OUT` as the host sees it included; a reserved value has no effect
in any state. For a unit in FAULT, that the host sees the same `OUT` after CLEAR as before is the model's choice (log 1): R293 keeps
`OUT`, and R322 leaves open what the host sees of it in FAULT. -/
def Obligations.ClearAndReserved : Prop :=
  ∀ (s : State) (u : UnitId),
    let sh := s.shell u
    (sh.state = .busy → exec (.cmdClear u) s = .next s) ∧
      (sh.state ≠ .busy →
        ∃ t, exec (.cmdClear u) s = .next t ∧ t = s.setShell u (t.shell u) ∧
          t.shell u = { sh with
            state := .idle
            err := .none
            flags := ⟨false, false, false⟩
            errPos := 0
            outBuf := (t.shell u).outBuf
            outGen := (t.shell u).outGen } ∧
          (∀ a, (t.shell u).hostOut u a = sh.hostOut u a) ∧ (t.shell u).irq = false) ∧
      ∀ v : Word, v ≠ 1 → v ≠ 2 → hostAct (.write u 0 v) s = .next s

/-- Register reads (44_host_commands.md R290; 10_state.md R20 to R33): the value by register number, no side effect; the
progress registers of a BUSY unit read as some value in their range. -/
def Obligations.RegisterReads : Prop :=
  ∀ (s : State) (u : UnitId) (i : BitVec 4), s.Good →
    let sh := s.shell u
    let value : Word :=
      if i = 1 then sh.status else if i = 2 then (if sh.ie then 1 else 0) else if i = 3 then sh.inLen
      else if i = 4 then sh.inPos else if i = 5 then sh.outLen else if i = 6 then sh.errPos
      else if i = 8 then sh.cfg0 else if i = 9 then sh.cfg1 else if i = 10 then sh.cfg2 else 0
    ∃ t, hostAct (.read u i) s = .next t ∧ t = { s with busData := t.busData, fresh := t.fresh } ∧
      (sh.state ≠ .busy ∨ (i ≠ 4 ∧ i ≠ 5) → t.busData = value) ∧
      (sh.state = .busy → i = 4 → t.busData.toNat ≤ sh.inLen.toNat) ∧
      (sh.state = .busy → i = 5 → t.busData.toNat ≤ s.cfg.maxOut) ∧
      (sh.state = .busy → i = 1 → t.busData = 1)

/-- Register writes (44_host_commands.md R291; 10_state.md R24, R25, R29): `IEN` in every state, `IN_LEN` and the configuration
registers unless BUSY and without their reserved bits, everything else ignored; what was stored is what is read. -/
def Obligations.RegisterWrites : Prop :=
  ∀ (s : State) (u : UnitId) (i : BitVec 4) (v : Word), i ≠ 0 →
    let sh := s.shell u
    let bits (j : BitVec 4) : Word :=
      match u, j.toNat with
      | .pfe, 8 | .pfe, 9 | .lzd, 9 | .g4e, 8 | .g4e, 9 | .rld, 8 | .rld, 9 => 0xFFFFFFFF
      | .pfe, 10 => 0x1F + 0x7 <<< 8 + 1 <<< 16
      | .lzd, 8 => 0xF + 1 <<< 8
      | .rld, 10 => 3
      | _, _ => 0
    ∃ t, hostAct (.write u i v) s = .next t ∧
      (i = 2 → t = s.setShell u { sh with ie := v.getLsbD 0 }) ∧
      (sh.state = .busy → i ≠ 2 → t = s) ∧
      (sh.state ≠ .busy → i = 3 → t = s.setShell u { sh with inLen := v }) ∧
      (sh.state ≠ .busy → i = 8 → t = s.setShell u { sh with cfg0 := v &&& bits 8 }) ∧
      (sh.state ≠ .busy → i = 9 → t = s.setShell u { sh with cfg1 := v &&& bits 9 }) ∧
      (sh.state ≠ .busy → i = 10 → t = s.setShell u { sh with cfg2 := v &&& bits 10 }) ∧
      (i = 1 ∨ i = 4 ∨ i = 5 ∨ i = 6 ∨ i = 7 ∨ 11 ≤ i.toNat → t = s)

/-- Buffer accesses (44_host_commands.md R295; 60_exceptions.md R322; 20_memory.md R73, R74): a write to `IN` stores the byte and
nothing else, a read returns the stored byte; while BUSY or outside the buffer a write is ignored; a write to `OUT` always is. A
read changes nothing of the block. -/
def Obligations.BufferAccesses : Prop :=
  ∀ (s : State) (u : UnitId) (a : Nat) (v : Byte),
    let sh := s.shell u
    (sh.state ≠ .busy → a < s.cfg.maxIn →
      ∃ t, hostAct (.writeIn u a v) s = .next t ∧ t = s.setShell u { sh with inBuf := (t.shell u).inBuf } ∧
        ∀ b, (t.shell u).inByte u b = if b = a then v else sh.inByte u b) ∧
      (sh.state = .busy ∨ s.cfg.maxIn ≤ a → hostAct (.writeIn u a v) s = .next s) ∧
      hostAct (.writeOut u a v) s = .next s ∧
      (sh.state ≠ .busy → a < s.cfg.maxIn →
        hostAct (.readIn u a) s = .next { s with busData := (sh.inByte u a).setWidth 32 }) ∧
      (sh.state = .idle ∨ sh.state = .done → a < s.cfg.maxOut →
        hostAct (.readOut u a) s = .next { s with busData := (sh.outByte u a).setWidth 32 }) ∧
      (∃ t, hostAct (.readIn u a) s = .next t ∧ t = { s with busData := t.busData, fresh := t.fresh }) ∧
      ∃ t, hostAct (.readOut u a) s = .next t ∧ t = { s with busData := t.busData, fresh := t.fresh }

/-- The word of `STATUS` and the interrupt output (10_state.md R23; 60_exceptions.md R311, R325). -/
def Obligations.StatusAndInterrupt : Prop :=
  ∀ sh : Shell,
    let st := sh.status
    (st.extractLsb' 0 2).toNat = (match sh.state with | .idle => 0 | .busy => 1 | .done => 2 | .fault => 3) ∧
      (st.extractLsb' 4 4).toNat =
        (match sh.err with
        | .none => 0 | .cfg => 1 | .filter => 2 | .trunc => 3 | .lzwCode => 4 | .bounds => 5 | .ovf => 6) ∧
      st.getLsbD 8 = sh.flags.inRem ∧ st.getLsbD 9 = sh.flags.short ∧ st.getLsbD 10 = sh.flags.under ∧
      st.extractLsb' 2 2 = 0 ∧ st.extractLsb' 11 21 = 0 ∧
      (sh.irq = true ↔ sh.ie = true ∧ ((st.extractLsb' 0 2).toNat = 2 ∨ (st.extractLsb' 0 2).toNat = 3))

/-! ### The whole machine -/

/-- A unit's turn changes only that unit, and there it leaves what the host alone writes: `IEN`, `IN_LEN`, the configuration
registers and `IN` (10_state.md section 2; 20_memory.md R74, R84; 60_exceptions.md R318, R336). A unit that is not BUSY does
nothing (R335). -/
def Obligations.UnitTouchesOnlyItself : Prop :=
  ∀ (s t : State) (u : UnitId), unitStep u s = .next t →
    (∀ v, v ≠ u → t.shell v = s.shell v) ∧
      (u ≠ .pfe → t.pfe = s.pfe) ∧ (u ≠ .lzd → t.lzd = s.lzd) ∧ (u ≠ .g4e → t.g4e = s.g4e) ∧
      (u ≠ .rld → t.rld = s.rld) ∧
      t = { s with pfe := t.pfe, lzd := t.lzd, g4e := t.g4e, rld := t.rld } ∧
      (let a := s.shell u
       let b := t.shell u
       b = { a with
         state := b.state
         err := b.err
         flags := b.flags
         inPos := b.inPos
         outLen := b.outLen
         errPos := b.errPos
         outBuf := b.outBuf }) ∧
      ((s.shell u).state ≠ .busy → t = s)

/-- Faults are precise (60_exceptions.md R318, R319, R321): the step of a unit that enters FAULT by anything but `E_OVF` changes
the status fields only, and in LZD what the fetch has changed; `ERR_POS` is the cursor at that moment. -/
def Obligations.FaultsArePrecise : Prop :=
  ∀ (s t : State) (u : UnitId), unitStep u s = .next t → (s.shell u).state = .busy → (t.shell u).state = .fault →
    (t.shell u).errPos = (t.shell u).inPos ∧ (t.shell u).flags = ⟨false, false, false⟩ ∧
      ((t.shell u).err ≠ .ovf →
        (u ≠ .lzd → t = s.setShell u ((s.shell u).Faulted (t.shell u).err (s.shell u).inPos)) ∧
          (u = .lzd → t = { s with lzd := { s.lzd with
            datum := t.lzd.datum
            nbits := t.lzd.nbits
            sh := { s.lzd.sh with inPos := t.lzd.sh.inPos }.Faulted .lzwCode t.lzd.sh.inPos } }))

/-- `STATE` moves only as 10_state.md R23 says: out of IDLE by START, out of BUSY by the unit's own turn, out of DONE and
FAULT by CLEAR, and to IDLE by a hardware reset; there is no abort (44_host_commands.md R296). -/
def Obligations.StateMoves : Prop :=
  ∀ (s t : State) (u : UnitId), step s = .next t → (t.shell u).state ≠ (s.shell u).state →
    ((s.shell u).state = .idle ∧ ((t.shell u).state = .busy ∨ (t.shell u).state = .fault) ∧
        s.takeTurn.1 = .host ∧ s.hostQ.head? = some (.write u 0 1)) ∨
      ((s.shell u).state = .busy ∧ ((t.shell u).state = .done ∨ (t.shell u).state = .fault) ∧
        s.takeTurn.1 = .unit u) ∨
      (((s.shell u).state = .done ∨ (s.shell u).state = .fault) ∧ (t.shell u).state = .idle ∧
        s.takeTurn.1 = .host ∧ s.hostQ.head? = some (.write u 0 2)) ∨
      ((t.shell u).state = .idle ∧ s.takeTurn.1 = .host ∧ s.hostQ.head? = some .hardReset)

/-- The steps of different units may be interleaved in any order: every order of the same turns ends in the same state
(60_exceptions.md R336, 20_memory.md R85). -/
def Obligations.InterleavingsAgree : Prop :=
  ∀ (s : State) (us vs : List UnitId), s.Good → us.Perm vs → ∃ t, runTurns us s = .next t ∧ runTurns vs s = .next t

/-- Every run ends (70_reset_and_hazards.md R362): PFE after at most the scanlines still due, LZD after at most a third of the
stream bits still unused and one step, G4E after at most `W + 2` steps for each row not yet ended, the one it is in among them, and one,
RLD after at most half of the bytes still unread and one. -/
def Obligations.RunsEnd : Prop :=
  ∀ s : State, s.Good →
    let ends (u : UnitId) (n : Nat) : Prop :=
      ∃ t, runTurns (List.replicate n u) s = .next t ∧ ((t.shell u).state = .done ∨ (t.shell u).state = .fault)
    (s.pfe.sh.state = .busy →
      ends .pfe (s.pfe.ph.toNat - s.pfe.row.toNat +
        (((s.pfe.passes.drop (s.pfe.pass.toNat + 1)).filter s.pfe.passFull).map s.pfe.passHeight).sum)) ∧
      (s.lzd.sh.state = .busy → ends .lzd ((8 * s.lzd.sh.inLen.toNat - s.lzd.bitPos) / 3 + 1)) ∧
      (s.g4e.sh.state = .busy → ends .g4e ((s.g4e.height - s.g4e.row.toNat) * (s.g4e.width + 2) + 1)) ∧
      (s.rld.sh.state = .busy → ends .rld ((s.rld.sh.inLen.toNat - s.rld.sh.inPos.toNat) / 2 + 1))

/-- Fairness and termination together (70_reset_and_hazards.md R363): a BUSY unit takes its next step, and comes to DONE or
FAULT, whatever the host and the other units do, short of a hardware reset. That the machine's own schedules are the fair ones is
the model's choice (log 6). -/
def Obligations.StartedRunsEnd : Prop :=
  ∀ (s : State) (u : UnitId), s.Good → (s.shell u).state = .busy → HostAction.hardReset ∉ s.hostQ →
    (∃ n t, Sys2Proof.core.run n s = .next t ∧ (t.shell u).state = .busy ∧ t.takeTurn.1 = .unit u) ∧
      ∃ n t, Sys2Proof.core.run n s = .next t ∧ ((t.shell u).state = .done ∨ (t.shell u).state = .fault)
end

