-- ==== Sys2Proof/Laws/Mem.lean ====
section
/-! SUPPORT. The laws of memories: what a read gives after a store, and that a store keeps the canonical form. -/

namespace Sys2Proof.Laws

open Sys2Proof.Machine

variable {w : Nat}

@[simp] theorem stored_nil (a : Nat) : stored ([] : Mem w) a = none := rfl

theorem stored_cons (c : Nat × BitVec w) (m : Mem w) (a : Nat) :
    stored (c :: m) a = if c.1 = a then some c.2 else stored m a := rfl

theorem stored_append (m n : Mem w) (a : Nat) : stored (m ++ n) a = (stored m a).or (stored n a) := by
  induction m with
  | nil => simp
  | cons c m ih =>
    rw [List.cons_append, stored_cons, stored_cons, ih]
    split <;> simp

/-- Filtering by index hides exactly the cells whose index the filter refuses. -/
theorem stored_filter (m : Mem w) (p : Nat → Bool) (a : Nat) :
    stored (m.filter fun c => p c.1) a = if p a then stored m a else none := by
  induction m with
  | nil => simp
  | cons c m ih =>
    rw [List.filter_cons]
    by_cases h : p c.1 = true
    · rw [if_pos h, stored_cons, stored_cons, ih]
      by_cases hc : c.1 = a
      · subst hc; simp [h]
      · simp [hc]
    · rw [if_neg h, ih, stored_cons]
      by_cases hc : c.1 = a
      · subst hc; simp [h]
      · simp [hc]

theorem stored_block (vs : List (BitVec w)) : ∀ a b,
    stored (block a vs) b = if a ≤ b then vs[b - a]? else none := by
  induction vs with
  | nil => intro a b; simp [block]
  | cons v vs ih =>
    intro a b
    rw [block, stored_cons, ih]
    by_cases h : a = b
    · subst h; simp
    · by_cases h' : a ≤ b
      · have h1 : a + 1 ≤ b := by omega
        have h2 : b - a = (b - (a + 1)) + 1 := by omega
        simp [h, h', h1, h2]
      · have h1 : ¬ a + 1 ≤ b := by omega
        simp [h, h', h1]

/-- What a cell holds after a store: the new value inside the block, its old content outside. -/
theorem stored_store (m : Mem w) (a : Nat) (vs : List (BitVec w)) (b : Nat) :
    stored (store m a vs) b = if a ≤ b ∧ b < a + vs.length then vs[b - a]? else stored m b := by
  rw [store, stored_append, stored_append, stored_filter m (fun k => decide (k < a)),
    stored_filter m (fun k => decide (a + vs.length ≤ k)), stored_block]
  by_cases h1 : b < a
  · have h2 : ¬ a ≤ b := by omega
    have h3 : ¬ a + vs.length ≤ b := by omega
    simp [h1, h2, h3]
  · have h2 : a ≤ b := by omega
    by_cases h3 : b < a + vs.length
    · have h4 : b - a < vs.length := by omega
      simp [h1, h2, h3, h4]
    · have h4 : a + vs.length ≤ b := by omega
      have h5 : vs[b - a]? = none := List.getElem?_eq_none (by omega)
      simp [h1, h3, h4, h5]

theorem cell_store (sp : Space) (gen : Nat) (m : Mem w) (a : Nat) (vs : List (BitVec w)) (b : Nat) :
    cell sp gen (store m a vs) b = if a ≤ b then vs.getD (b - a) (cell sp gen m b) else cell sp gen m b := by
  rw [cell, stored_store]
  by_cases h1 : a ≤ b
  · by_cases h2 : b < a + vs.length
    · have h4 : b - a < vs.length := by omega
      simp [h1, h2, h4]
    · have h5 : vs[b - a]? = none := List.getElem?_eq_none (by omega)
      simp [h1, h2, h5, cell]
  · simp [h1, cell]

/-- Reading outside a stored block gives what was read before. -/
theorem cell_store_outside (sp : Space) (gen : Nat) (m : Mem w) (a : Nat) (vs : List (BitVec w)) (b : Nat)
    (h : b < a ∨ a + vs.length ≤ b) : cell sp gen (store m a vs) b = cell sp gen m b := by
  rw [cell, stored_store, if_neg (by omega), cell]

/-- Reading inside a stored block gives the value stored. -/
theorem cell_store_inside (sp : Space) (gen : Nat) (m : Mem w) (a : Nat) (vs : List (BitVec w)) (k : Nat)
    (h : k < vs.length) : cell sp gen (store m a vs) (a + k) = vs[k] := by
  rw [cell, stored_store, if_pos (by omega)]
  simp [h]

@[simp] theorem readBlock_length (sp : Space) (gen : Nat) (m : Mem w) (n : Nat) : ∀ a,
    (readBlock sp gen m a n).length = n := by
  induction n with
  | zero => intro a; rfl
  | succ n ih => intro a; simp [readBlock, ih]

theorem readBlock_getElem? (sp : Space) (gen : Nat) (m : Mem w) (n : Nat) : ∀ a k,
    (readBlock sp gen m a n)[k]? = if k < n then some (cell sp gen m (a + k)) else none := by
  induction n with
  | zero => intro a k; simp [readBlock]
  | succ n ih =>
    intro a k
    cases k with
    | zero => simp [readBlock]
    | succ k =>
      simp only [readBlock, List.getElem?_cons_succ, ih]
      simp only [Nat.add_lt_add_iff_right]
      rw [show a + 1 + k = a + (k + 1) by omega]

/-! ### Canonical form and bounds -/

theorem canonical_cons (c : Nat × BitVec w) (m : Mem w) :
    canonical (c :: m) = true ↔ (∀ d ∈ m, c.1 < d.1) ∧ canonical m = true := by
  simp [canonical, List.all_eq_true]

theorem canonical_append (m n : Mem w) :
    canonical (m ++ n) = true ↔
      canonical m = true ∧ canonical n = true ∧ ∀ c ∈ m, ∀ d ∈ n, c.1 < d.1 := by
  induction m with
  | nil => simp [canonical]
  | cons c m ih =>
    rw [List.cons_append, canonical_cons, canonical_cons, ih]
    constructor
    · rintro ⟨h1, h2, h3, h4⟩
      refine ⟨⟨fun d hd => h1 d (List.mem_append_left _ hd), h2⟩, h3, ?_⟩
      intro e he d hd
      rcases List.mem_cons.mp he with rfl | he
      · exact h1 d (List.mem_append_right _ hd)
      · exact h4 e he d hd
    · rintro ⟨⟨h1, h2⟩, h3, h4⟩
      refine ⟨?_, h2, h3, fun e he d hd => h4 e (List.mem_cons_of_mem _ he) d hd⟩
      intro d hd
      rcases List.mem_append.mp hd with hd | hd
      · exact h1 d hd
      · exact h4 c (List.mem_cons_self ..) d hd

theorem canonical_filter (m : Mem w) (p : Nat × BitVec w → Bool) (h : canonical m = true) :
    canonical (m.filter p) = true := by
  induction m with
  | nil => rfl
  | cons c m ih =>
    rw [canonical_cons] at h
    rw [List.filter_cons]
    split
    · exact (canonical_cons _ _).mpr ⟨fun d hd => h.1 d (List.mem_filter.mp hd).1, ih h.2⟩
    · exact ih h.2

theorem mem_block (vs : List (BitVec w)) : ∀ a, ∀ c ∈ block a vs, a ≤ c.1 ∧ c.1 < a + vs.length := by
  induction vs with
  | nil => intro a c hc; simp [block] at hc
  | cons v vs ih =>
    intro a c hc
    rcases List.mem_cons.mp hc with rfl | hc
    · simp
    · have := ih _ _ hc
      simp only [List.length_cons]
      omega

theorem canonical_block (vs : List (BitVec w)) : ∀ a, canonical (block a vs) = true := by
  induction vs with
  | nil => intro a; rfl
  | cons v vs ih =>
    intro a
    exact (canonical_cons _ _).mpr ⟨fun d hd => (mem_block vs _ d hd).1, ih _⟩

/-- A store keeps the canonical form. -/
theorem canonical_store (m : Mem w) (a : Nat) (vs : List (BitVec w)) (h : canonical m = true) :
    canonical (store m a vs) = true := by
  rw [store, canonical_append, canonical_append]
  refine ⟨canonical_filter _ _ h, ⟨canonical_block _ _, canonical_filter _ _ h, ?_⟩, ?_⟩
  · intro c hc d hd
    have h1 := (mem_block vs a c hc).2
    have h2 : a + vs.length ≤ d.1 := by simpa using (List.mem_filter.mp hd).2
    omega
  · intro c hc d hd
    have h1 : c.1 < a := by simpa using (List.mem_filter.mp hc).2
    rcases List.mem_append.mp hd with hd | hd
    · exact lt_of_lt_of_le h1 (mem_block vs a d hd).1
    · have h2 : a + vs.length ≤ d.1 := by simpa using (List.mem_filter.mp hd).2
      omega

/-- A store inside the space keeps every cell inside it. -/
theorem cellsBelow_store {n : Nat} (m : Mem w) (a : Nat) (vs : List (BitVec w)) (h : cellsBelow n m)
    (hn : a + vs.length ≤ n) : cellsBelow n (store m a vs) := by
  intro c hc
  rw [store, List.mem_append, List.mem_append] at hc
  rcases hc with hc | hc | hc
  · exact h c (List.mem_filter.mp hc).1
  · exact lt_of_lt_of_le (mem_block vs a c hc).2 hn
  · exact h c (List.mem_filter.mp hc).1

end Sys2Proof.Laws
end

