-- ==== Sys2Proof/Laws/State.lean ====
section
/-! SUPPORT. One lemma per field for every update of the units' records, all true by rfl: later proofs never unfold an
update. -/

namespace Sys2Proof.Laws

open Sys2Proof.Machine

/-! ### Shell -/

@[simp] theorem raise_state (sh : Shell) (e : ErrCode) (p : Word) : (sh.raise e p).state = .fault := rfl
@[simp] theorem raise_err (sh : Shell) (e : ErrCode) (p : Word) : (sh.raise e p).err = e := rfl
@[simp] theorem raise_flags (sh : Shell) (e : ErrCode) (p : Word) : (sh.raise e p).flags = .clear := rfl
@[simp] theorem raise_ie (sh : Shell) (e : ErrCode) (p : Word) : (sh.raise e p).ie = sh.ie := rfl
@[simp] theorem raise_inLen (sh : Shell) (e : ErrCode) (p : Word) : (sh.raise e p).inLen = sh.inLen := rfl
@[simp] theorem raise_inPos (sh : Shell) (e : ErrCode) (p : Word) : (sh.raise e p).inPos = sh.inPos := rfl
@[simp] theorem raise_outLen (sh : Shell) (e : ErrCode) (p : Word) : (sh.raise e p).outLen = sh.outLen := rfl
@[simp] theorem raise_errPos (sh : Shell) (e : ErrCode) (p : Word) : (sh.raise e p).errPos = p := rfl
@[simp] theorem raise_cfg0 (sh : Shell) (e : ErrCode) (p : Word) : (sh.raise e p).cfg0 = sh.cfg0 := rfl
@[simp] theorem raise_cfg1 (sh : Shell) (e : ErrCode) (p : Word) : (sh.raise e p).cfg1 = sh.cfg1 := rfl
@[simp] theorem raise_cfg2 (sh : Shell) (e : ErrCode) (p : Word) : (sh.raise e p).cfg2 = sh.cfg2 := rfl
@[simp] theorem raise_inBuf (sh : Shell) (e : ErrCode) (p : Word) : (sh.raise e p).inBuf = sh.inBuf := rfl
@[simp] theorem raise_outBuf (sh : Shell) (e : ErrCode) (p : Word) : (sh.raise e p).outBuf = sh.outBuf := rfl
@[simp] theorem raise_inGen (sh : Shell) (e : ErrCode) (p : Word) : (sh.raise e p).inGen = sh.inGen := rfl
@[simp] theorem raise_outGen (sh : Shell) (e : ErrCode) (p : Word) : (sh.raise e p).outGen = sh.outGen := rfl

@[simp] theorem finish_state (sh : Shell) (f : Flags) : (sh.finish f).state = .done := rfl
@[simp] theorem finish_err (sh : Shell) (f : Flags) : (sh.finish f).err = .none := rfl
@[simp] theorem finish_flags (sh : Shell) (f : Flags) : (sh.finish f).flags = f := rfl
@[simp] theorem finish_ie (sh : Shell) (f : Flags) : (sh.finish f).ie = sh.ie := rfl
@[simp] theorem finish_inLen (sh : Shell) (f : Flags) : (sh.finish f).inLen = sh.inLen := rfl
@[simp] theorem finish_inPos (sh : Shell) (f : Flags) : (sh.finish f).inPos = sh.inPos := rfl
@[simp] theorem finish_outLen (sh : Shell) (f : Flags) : (sh.finish f).outLen = sh.outLen := rfl
@[simp] theorem finish_errPos (sh : Shell) (f : Flags) : (sh.finish f).errPos = sh.errPos := rfl
@[simp] theorem finish_cfg0 (sh : Shell) (f : Flags) : (sh.finish f).cfg0 = sh.cfg0 := rfl
@[simp] theorem finish_cfg1 (sh : Shell) (f : Flags) : (sh.finish f).cfg1 = sh.cfg1 := rfl
@[simp] theorem finish_cfg2 (sh : Shell) (f : Flags) : (sh.finish f).cfg2 = sh.cfg2 := rfl
@[simp] theorem finish_inBuf (sh : Shell) (f : Flags) : (sh.finish f).inBuf = sh.inBuf := rfl
@[simp] theorem finish_outBuf (sh : Shell) (f : Flags) : (sh.finish f).outBuf = sh.outBuf := rfl
@[simp] theorem finish_inGen (sh : Shell) (f : Flags) : (sh.finish f).inGen = sh.inGen := rfl
@[simp] theorem finish_outGen (sh : Shell) (f : Flags) : (sh.finish f).outGen = sh.outGen := rfl

@[simp] theorem startClear_state (sh : Shell) : (sh.startClear).state = sh.state := rfl
@[simp] theorem startClear_err (sh : Shell) : (sh.startClear).err = .none := rfl
@[simp] theorem startClear_flags (sh : Shell) : (sh.startClear).flags = .clear := rfl
@[simp] theorem startClear_ie (sh : Shell) : (sh.startClear).ie = sh.ie := rfl
@[simp] theorem startClear_inLen (sh : Shell) : (sh.startClear).inLen = sh.inLen := rfl
@[simp] theorem startClear_inPos (sh : Shell) : (sh.startClear).inPos = 0 := rfl
@[simp] theorem startClear_outLen (sh : Shell) : (sh.startClear).outLen = 0 := rfl
@[simp] theorem startClear_errPos (sh : Shell) : (sh.startClear).errPos = 0 := rfl
@[simp] theorem startClear_cfg0 (sh : Shell) : (sh.startClear).cfg0 = sh.cfg0 := rfl
@[simp] theorem startClear_cfg1 (sh : Shell) : (sh.startClear).cfg1 = sh.cfg1 := rfl
@[simp] theorem startClear_cfg2 (sh : Shell) : (sh.startClear).cfg2 = sh.cfg2 := rfl
@[simp] theorem startClear_inBuf (sh : Shell) : (sh.startClear).inBuf = sh.inBuf := rfl
@[simp] theorem startClear_outBuf (sh : Shell) : (sh.startClear).outBuf = sh.outBuf := rfl
@[simp] theorem startClear_inGen (sh : Shell) : (sh.startClear).inGen = sh.inGen := rfl
@[simp] theorem startClear_outGen (sh : Shell) : (sh.startClear).outGen = sh.outGen := rfl

@[simp] theorem clearCanvas_state (sh : Shell) (n : Nat) : (sh.clearCanvas n).state = sh.state := rfl
@[simp] theorem clearCanvas_err (sh : Shell) (n : Nat) : (sh.clearCanvas n).err = sh.err := rfl
@[simp] theorem clearCanvas_flags (sh : Shell) (n : Nat) : (sh.clearCanvas n).flags = sh.flags := rfl
@[simp] theorem clearCanvas_ie (sh : Shell) (n : Nat) : (sh.clearCanvas n).ie = sh.ie := rfl
@[simp] theorem clearCanvas_inLen (sh : Shell) (n : Nat) : (sh.clearCanvas n).inLen = sh.inLen := rfl
@[simp] theorem clearCanvas_inPos (sh : Shell) (n : Nat) : (sh.clearCanvas n).inPos = sh.inPos := rfl
@[simp] theorem clearCanvas_outLen (sh : Shell) (n : Nat) : (sh.clearCanvas n).outLen = sh.outLen := rfl
@[simp] theorem clearCanvas_errPos (sh : Shell) (n : Nat) : (sh.clearCanvas n).errPos = sh.errPos := rfl
@[simp] theorem clearCanvas_cfg0 (sh : Shell) (n : Nat) : (sh.clearCanvas n).cfg0 = sh.cfg0 := rfl
@[simp] theorem clearCanvas_cfg1 (sh : Shell) (n : Nat) : (sh.clearCanvas n).cfg1 = sh.cfg1 := rfl
@[simp] theorem clearCanvas_cfg2 (sh : Shell) (n : Nat) : (sh.clearCanvas n).cfg2 = sh.cfg2 := rfl
@[simp] theorem clearCanvas_inBuf (sh : Shell) (n : Nat) : (sh.clearCanvas n).inBuf = sh.inBuf := rfl
@[simp] theorem clearCanvas_outBuf (sh : Shell) (n : Nat) : (sh.clearCanvas n).outBuf = store sh.outBuf 0 (List.replicate n 0) := rfl
@[simp] theorem clearCanvas_inGen (sh : Shell) (n : Nat) : (sh.clearCanvas n).inGen = sh.inGen := rfl
@[simp] theorem clearCanvas_outGen (sh : Shell) (n : Nat) : (sh.clearCanvas n).outGen = sh.outGen := rfl

@[simp] theorem advance_state (sh : Shell) (n : Nat) : (sh.advance n).state = sh.state := rfl
@[simp] theorem advance_err (sh : Shell) (n : Nat) : (sh.advance n).err = sh.err := rfl
@[simp] theorem advance_flags (sh : Shell) (n : Nat) : (sh.advance n).flags = sh.flags := rfl
@[simp] theorem advance_ie (sh : Shell) (n : Nat) : (sh.advance n).ie = sh.ie := rfl
@[simp] theorem advance_inLen (sh : Shell) (n : Nat) : (sh.advance n).inLen = sh.inLen := rfl
@[simp] theorem advance_inPos (sh : Shell) (n : Nat) : (sh.advance n).inPos = word (sh.inPos.toNat + n) := rfl
@[simp] theorem advance_outLen (sh : Shell) (n : Nat) : (sh.advance n).outLen = sh.outLen := rfl
@[simp] theorem advance_errPos (sh : Shell) (n : Nat) : (sh.advance n).errPos = sh.errPos := rfl
@[simp] theorem advance_cfg0 (sh : Shell) (n : Nat) : (sh.advance n).cfg0 = sh.cfg0 := rfl
@[simp] theorem advance_cfg1 (sh : Shell) (n : Nat) : (sh.advance n).cfg1 = sh.cfg1 := rfl
@[simp] theorem advance_cfg2 (sh : Shell) (n : Nat) : (sh.advance n).cfg2 = sh.cfg2 := rfl
@[simp] theorem advance_inBuf (sh : Shell) (n : Nat) : (sh.advance n).inBuf = sh.inBuf := rfl
@[simp] theorem advance_outBuf (sh : Shell) (n : Nat) : (sh.advance n).outBuf = sh.outBuf := rfl
@[simp] theorem advance_inGen (sh : Shell) (n : Nat) : (sh.advance n).inGen = sh.inGen := rfl
@[simp] theorem advance_outGen (sh : Shell) (n : Nat) : (sh.advance n).outGen = sh.outGen := rfl

/-! ### PFE -/

@[simp] theorem enterPass_sh (p : Pfe) (q : Nat) (g : PassGeom) : (p.enterPass q g).sh = p.sh := rfl
@[simp] theorem enterPass_pass (p : Pfe) (q : Nat) (g : PassGeom) : (p.enterPass q g).pass = BitVec.ofNat 4 q := rfl
@[simp] theorem enterPass_row (p : Pfe) (q : Nat) (g : PassGeom) : (p.enterPass q g).row = 0 := rfl
@[simp] theorem enterPass_pw (p : Pfe) (q : Nat) (g : PassGeom) : (p.enterPass q g).pw = word (p.passWidth g) := rfl
@[simp] theorem enterPass_ph (p : Pfe) (q : Nat) (g : PassGeom) : (p.enterPass q g).ph = word (p.passHeight g) := rfl
@[simp] theorem enterPass_prb (p : Pfe) (q : Nat) (g : PassGeom) : (p.enterPass q g).prb = word (p.passBytes g) := rfl
@[simp] theorem enterPass_curr (p : Pfe) (q : Nat) (g : PassGeom) : (p.enterPass q g).curr = p.curr := rfl
@[simp] theorem enterPass_prior (p : Pfe) (q : Nat) (g : PassGeom) : (p.enterPass q g).prior = store p.prior 0 (List.replicate (p.passBytes g) 0) := rfl

/-! ### LZD -/

@[simp] theorem clearTable_sh (l : Lzd) : (l.clearTable).sh = l.sh := rfl
@[simp] theorem clearTable_codeSize (l : Lzd) : (l.clearTable).codeSize = BitVec.ofNat 4 (l.depth + 1) := rfl
@[simp] theorem clearTable_avail (l : Lzd) : (l.clearTable).avail = BitVec.ofNat 13 l.cx.firstFree := rfl
@[simp] theorem clearTable_old (l : Lzd) : (l.clearTable).old = l.old := rfl
@[simp] theorem clearTable_oldValid (l : Lzd) : (l.clearTable).oldValid = false := rfl
@[simp] theorem clearTable_first (l : Lzd) : (l.clearTable).first = l.first := rfl
@[simp] theorem clearTable_datum (l : Lzd) : (l.clearTable).datum = l.datum := rfl
@[simp] theorem clearTable_nbits (l : Lzd) : (l.clearTable).nbits = l.nbits := rfl
@[simp] theorem clearTable_prefixTab (l : Lzd) : (l.clearTable).prefixTab = l.prefixTab := rfl
@[simp] theorem clearTable_suffixTab (l : Lzd) : (l.clearTable).suffixTab = l.suffixTab := rfl

@[simp] theorem lzdFinish_sh (l : Lzd) (b : Bool) : (l.finish b).sh = l.sh.finish (l.sh.lzdFlags b) := rfl
@[simp] theorem lzdFinish_codeSize (l : Lzd) (b : Bool) : (l.finish b).codeSize = l.codeSize := rfl
@[simp] theorem lzdFinish_avail (l : Lzd) (b : Bool) : (l.finish b).avail = l.avail := rfl
@[simp] theorem lzdFinish_old (l : Lzd) (b : Bool) : (l.finish b).old = l.old := rfl
@[simp] theorem lzdFinish_oldValid (l : Lzd) (b : Bool) : (l.finish b).oldValid = l.oldValid := rfl
@[simp] theorem lzdFinish_first (l : Lzd) (b : Bool) : (l.finish b).first = l.first := rfl
@[simp] theorem lzdFinish_datum (l : Lzd) (b : Bool) : (l.finish b).datum = l.datum := rfl
@[simp] theorem lzdFinish_nbits (l : Lzd) (b : Bool) : (l.finish b).nbits = l.nbits := rfl
@[simp] theorem lzdFinish_prefixTab (l : Lzd) (b : Bool) : (l.finish b).prefixTab = l.prefixTab := rfl
@[simp] theorem lzdFinish_suffixTab (l : Lzd) (b : Bool) : (l.finish b).suffixTab = l.suffixTab := rfl

@[simp] theorem load_sh (l : Lzd) : (l.load).sh = l.sh.advance 1 := rfl
@[simp] theorem load_codeSize (l : Lzd) : (l.load).codeSize = l.codeSize := rfl
@[simp] theorem load_avail (l : Lzd) : (l.load).avail = l.avail := rfl
@[simp] theorem load_old (l : Lzd) : (l.load).old = l.old := rfl
@[simp] theorem load_oldValid (l : Lzd) : (l.load).oldValid = l.oldValid := rfl
@[simp] theorem load_first (l : Lzd) : (l.load).first = l.first := rfl
@[simp] theorem load_nbits (l : Lzd) : (l.load).nbits = l.nbits + 8 := rfl
@[simp] theorem load_prefixTab (l : Lzd) : (l.load).prefixTab = l.prefixTab := rfl
@[simp] theorem load_suffixTab (l : Lzd) : (l.load).suffixTab = l.suffixTab := rfl

/-! ### G4E -/

@[simp] theorem rowStart_sh (g : G4e) : (g.rowStart).sh = g.sh := rfl
@[simp] theorem rowStart_row (g : G4e) : (g.rowStart).row = g.row := rfl
@[simp] theorem rowStart_a0 (g : G4e) : (g.rowStart).a0 = 0 := rfl
@[simp] theorem rowStart_inrow (g : G4e) : (g.rowStart).inrow = g.inrow := rfl
@[simp] theorem rowStart_acc (g : G4e) : (g.rowStart).acc = g.acc := rfl
@[simp] theorem rowStart_free (g : G4e) : (g.rowStart).free = g.free := rfl
@[simp] theorem rowStart_cur (g : G4e) : (g.rowStart).cur = g.cur := rfl
@[simp] theorem rowStart_ref (g : G4e) : (g.rowStart).ref = g.ref := rfl
@[simp] theorem rowStart_pend (g : G4e) : (g.rowStart).pend = g.pend := rfl

@[simp] theorem g4Advance_sh (g : G4e) : (g.advance).sh = g.sh := rfl
@[simp] theorem g4Advance_row (g : G4e) : (g.advance).row = g.row := rfl
@[simp] theorem g4Advance_a0 (g : G4e) : (g.advance).a0 = g.a0 := rfl
@[simp] theorem g4Advance_inrow (g : G4e) : (g.advance).inrow = g.inrow := rfl
@[simp] theorem g4Advance_acc (g : G4e) : (g.advance).acc = g.acc := rfl
@[simp] theorem g4Advance_free (g : G4e) : (g.advance).free = g.free := rfl
@[simp] theorem g4Advance_cur (g : G4e) : (g.advance).cur = g.cur := rfl
@[simp] theorem g4Advance_ref (g : G4e) : (g.advance).ref = g.ref := rfl
@[simp] theorem g4Advance_pend (g : G4e) : (g.advance).pend = g.pend := rfl

@[simp] theorem endRow_sh (g : G4e) : (g.endRow).sh = g.sh := rfl
@[simp] theorem endRow_row (g : G4e) : (g.endRow).row = word (g.row.toNat + 1) := rfl
@[simp] theorem endRow_a0 (g : G4e) : (g.endRow).a0 = g.a0 := rfl
@[simp] theorem endRow_a1 (g : G4e) : (g.endRow).a1 = g.a1 := rfl
@[simp] theorem endRow_b1 (g : G4e) : (g.endRow).b1 = g.b1 := rfl
@[simp] theorem endRow_inrow (g : G4e) : (g.endRow).inrow = false := rfl
@[simp] theorem endRow_acc (g : G4e) : (g.endRow).acc = g.acc := rfl
@[simp] theorem endRow_free (g : G4e) : (g.endRow).free = g.free := rfl
@[simp] theorem endRow_cur (g : G4e) : (g.endRow).cur = g.cur := rfl
@[simp] theorem endRow_ref (g : G4e) : (g.endRow).ref = store g.ref 0 (readBlock .cur g.sh.inGen g.cur 0 g.rowBytes) := rfl
@[simp] theorem endRow_pend (g : G4e) : (g.endRow).pend = g.pend := rfl

/-! ### RLD -/

@[simp] theorem eol_sh (r : Rld) : (r.eol).sh = r.sh.advance 2 := rfl
@[simp] theorem eol_x (r : Rld) : (r.eol).x = 0 := rfl
@[simp] theorem eol_y (r : Rld) : (r.eol).y = word (r.y.toNat + 1) := rfl

@[simp] theorem eob_sh (r : Rld) : (r.eob).sh = (r.sh.advance 2).finish (r.sh.advance 2).endFlags := rfl
@[simp] theorem eob_x (r : Rld) : (r.eob).x = r.x := rfl
@[simp] theorem eob_y (r : Rld) : (r.eob).y = r.y := rfl

@[simp] theorem delta_sh (dx dy : Byte) (r : Rld) : (r.delta dx dy).sh = r.sh.advance 4 := rfl
@[simp] theorem delta_x (dx dy : Byte) (r : Rld) : (r.delta dx dy).x = word (r.x.toNat + dx.toNat) := rfl
@[simp] theorem delta_y (dx dy : Byte) (r : Rld) : (r.delta dx dy).y = word (r.y.toNat + dy.toNat) := rfl

/-! ### The machine -/

theorem shell_setShell (s : State) (u v : UnitId) (sh : Shell) :
    (s.setShell u sh).shell v = if v = u then sh else s.shell v := by
  cases u <;> cases v <;> rfl

@[simp] theorem shell_setShell_self (s : State) (u : UnitId) (sh : Shell) : (s.setShell u sh).shell u = sh := by
  cases u <;> rfl

@[simp] theorem setShell_shell (s : State) (u : UnitId) : s.setShell u (s.shell u) = s := by cases u <;> rfl

@[simp] theorem setShell_cfg (s : State) (u : UnitId) (sh : Shell) : (s.setShell u sh).cfg = s.cfg := by
  cases u <;> rfl

@[simp] theorem setShell_hostQ (s : State) (u : UnitId) (sh : Shell) : (s.setShell u sh).hostQ = s.hostQ := by
  cases u <;> rfl

@[simp] theorem setShell_busData (s : State) (u : UnitId) (sh : Shell) : (s.setShell u sh).busData = s.busData := by
  cases u <;> rfl

@[simp] theorem setShell_sched (s : State) (u : UnitId) (sh : Shell) : (s.setShell u sh).sched = s.sched := by
  cases u <;> rfl

@[simp] theorem setShell_tick (s : State) (u : UnitId) (sh : Shell) : (s.setShell u sh).tick = s.tick := by
  cases u <;> rfl

@[simp] theorem setShell_fresh (s : State) (u : UnitId) (sh : Shell) : (s.setShell u sh).fresh = s.fresh := by
  cases u <;> rfl

@[simp] theorem hardReset_cfg (s : State) : s.hardReset.cfg = s.cfg := rfl
@[simp] theorem hardReset_hostQ (s : State) : s.hardReset.hostQ = s.hostQ := rfl
@[simp] theorem hardReset_busData (s : State) : s.hardReset.busData = s.busData := rfl
@[simp] theorem hardReset_sched (s : State) : s.hardReset.sched = s.sched := rfl
@[simp] theorem hardReset_tick (s : State) : s.hardReset.tick = s.tick := rfl
@[simp] theorem hardReset_fresh (s : State) : s.hardReset.fresh = s.fresh := rfl

@[simp] theorem shell_pfe (s : State) : s.shell .pfe = s.pfe.sh := rfl
@[simp] theorem shell_lzd (s : State) : s.shell .lzd = s.lzd.sh := rfl
@[simp] theorem shell_g4e (s : State) : s.shell .g4e = s.g4e.sh := rfl
@[simp] theorem shell_rld (s : State) : s.shell .rld = s.rld.sh := rfl

/-! ### CLEAR: what it keeps -/

@[simp] theorem clear_ie (sh : Shell) : sh.clear.ie = sh.ie := by
  unfold Shell.clear; cases sh.state <;> rfl

@[simp] theorem clear_inLen (sh : Shell) : sh.clear.inLen = sh.inLen := by
  unfold Shell.clear; cases sh.state <;> rfl

@[simp] theorem clear_inPos (sh : Shell) : sh.clear.inPos = sh.inPos := by
  unfold Shell.clear; cases sh.state <;> rfl

@[simp] theorem clear_outLen (sh : Shell) : sh.clear.outLen = sh.outLen := by
  unfold Shell.clear; cases sh.state <;> rfl

@[simp] theorem clear_cfg0 (sh : Shell) : sh.clear.cfg0 = sh.cfg0 := by
  unfold Shell.clear; cases sh.state <;> rfl

@[simp] theorem clear_cfg1 (sh : Shell) : sh.clear.cfg1 = sh.cfg1 := by
  unfold Shell.clear; cases sh.state <;> rfl

@[simp] theorem clear_cfg2 (sh : Shell) : sh.clear.cfg2 = sh.cfg2 := by
  unfold Shell.clear; cases sh.state <;> rfl

@[simp] theorem clear_inBuf (sh : Shell) : sh.clear.inBuf = sh.inBuf := by
  unfold Shell.clear; cases sh.state <;> rfl

@[simp] theorem clear_inGen (sh : Shell) : sh.clear.inGen = sh.inGen := by
  unfold Shell.clear; cases sh.state <;> rfl

end Sys2Proof.Laws
end

