-- ==== Sys2Proof/Laws/Ops.lean ====
section
/-! SUPPORT. The laws of the shared operations: register words, stores into OUT, windows of IN, and how a unit's answer
becomes the machine's. -/

namespace Sys2Proof.Laws

open Sys2Proof.Machine

/-! ### Words -/

@[simp] theorem word_toNat (n : Nat) : (word n).toNat = n % 2 ^ 32 := by simp [word]

theorem word_toNat_of_lt {n : Nat} (h : n < 2 ^ 32) : (word n).toNat = n := by
  rw [word_toNat, Nat.mod_eq_of_lt h]

@[simp] theorem word_of_toNat (w : Word) : word w.toNat = w := by simp [word]

/-! ### Cells of the shells -/

theorem inByte_eq (u : UnitId) (sh : Shell) (a : Nat) : sh.inByte u a = cell (.input u) sh.inGen sh.inBuf a := rfl

theorem outByte_eq (u : UnitId) (sh : Shell) (a : Nat) : sh.outByte u a = cell (.output u) sh.outGen sh.outBuf a := rfl

/-- What the unit sees in OUT after the canvas is cleared. -/
theorem outByte_clearCanvas (u : UnitId) (sh : Shell) (n a : Nat) :
    (sh.clearCanvas n).outByte u a = if a < n then 0 else sh.outByte u a := by
  rw [outByte_eq, clearCanvas_outBuf, clearCanvas_outGen]
  split
  · next h =>
    have := cell_store_inside (.output u) sh.outGen sh.outBuf 0 (List.replicate n (0 : Byte)) a (by simpa using h)
    simpa using this
  · next h => exact cell_store_outside _ _ _ _ _ _ (Or.inr (by simp; omega))

/-! ### Stores into OUT -/

/-- A store answers exactly when it stays inside OUT, and then changes OUT only. -/
theorem storeOut_eq_ok (u : UnitId) (maxOut : Nat) (sh sh' : Shell) (a : Nat) (vs : List Byte) :
    sh.storeOut u maxOut a vs = .ok sh' ↔ a + vs.length ≤ maxOut ∧ sh' = { sh with outBuf := store sh.outBuf a vs } := by
  unfold Shell.storeOut
  split <;> simp_all [eq_comm]

theorem storeOut_fits {u : UnitId} {maxOut : Nat} {sh : Shell} {a : Nat} {vs : List Byte} (h : a + vs.length ≤ maxOut) :
    sh.storeOut u maxOut a vs = .ok { sh with outBuf := store sh.outBuf a vs } := by
  rw [Shell.storeOut, if_pos h]

/-- Every byte of OUT after a store. -/
theorem outByte_store (u : UnitId) (sh : Shell) (a : Nat) (vs : List Byte) (b : Nat) :
    ({ sh with outBuf := store sh.outBuf a vs } : Shell).outByte u b =
      if a ≤ b ∧ b < a + vs.length then vs.getD (b - a) 0 else sh.outByte u b := by
  rw [outByte_eq, outByte_eq]
  split
  · next h =>
    obtain ⟨k, rfl⟩ : ∃ k, b = a + k := ⟨b - a, by omega⟩
    have hk : k < vs.length := by omega
    rw [cell_store_inside _ _ _ _ _ _ hk]
    simp [hk]
  · next h => exact cell_store_outside _ _ _ _ _ _ (by omega)

/-! ### Windows of IN -/

@[simp] theorem window_length (u : UnitId) (sh : Shell) (n : Nat) :
    (sh.window u n).length = min n (sh.inLen.toNat - sh.inPos.toNat) := readBlock_length ..

/-- The window's bytes are those of IN from the cursor on. -/
theorem window_getElem? (u : UnitId) (sh : Shell) (n k : Nat) :
    (sh.window u n)[k]? =
      if k < n ∧ sh.inPos.toNat + k < sh.inLen.toNat then some (sh.inByte u (sh.inPos.toNat + k)) else none := by
  rw [Shell.window, readBlock_getElem?]
  by_cases h : k < min n (sh.inLen.toNat - sh.inPos.toNat)
  · rw [if_pos h, if_pos (by omega)]; rfl
  · rw [if_neg h, if_neg (by omega)]

/-! ### Answers -/

@[simp] theorem settle_ok {α : Type} (a : α) (put : α → State) : settle (.ok a) put = .next (put a) := rfl

@[simp] theorem settle_error {α : Type} (f : Fault) (put : α → State) : settle (.error f) put = .fault f := rfl

/-- A unit's answer gives a next state exactly when it is one. -/
theorem settle_eq_next {α : Type} (r : Except Fault α) (put : α → State) (t : State) :
    settle r put = .next t ↔ ∃ a, r = .ok a ∧ t = put a := by
  cases r <;> simp [settle, eq_comm]

/-! ### Fields of bit strings -/

@[simp] theorem lsbBits_length (w : Nat) : ∀ v, (lsbBits w v).length = w := by
  induction w with
  | zero => intro v; rfl
  | succ w ih => intro v; simp [lsbBits, ih]

@[simp] theorem msbBits_length (w v : Nat) : (msbBits w v).length = w := by simp [msbBits]

@[simp] theorem bits_length (c : CodeWord) : c.bits.length = c.len := by simp [CodeWord.bits]

theorem lsbValue_lsbBits (w : Nat) : ∀ v, lsbValue (lsbBits w v) = v % 2 ^ w := by
  induction w with
  | zero => intro v; simp [lsbBits, lsbValue, Nat.mod_one]
  | succ w ih =>
    intro v
    rw [lsbBits, lsbValue, ih, pow_succ', Nat.mod_mul]
    rcases Nat.mod_two_eq_zero_or_one v with h | h <;> simp [h]

theorem lsbBits_lsbValue (bs : List Bool) : lsbBits bs.length (lsbValue bs) = bs := by
  induction bs with
  | nil => rfl
  | cons b bs ih =>
    rw [List.length_cons, lsbBits, lsbValue]
    have h1 : (b.toNat + 2 * lsbValue bs) % 2 = b.toNat := by cases b <;> simp [Nat.add_mod]
    have h2 : (b.toNat + 2 * lsbValue bs) / 2 = lsbValue bs := by cases b <;> simp; omega
    rw [h1, h2, ih]
    cases b <;> rfl

theorem msbValue_msbBits (w v : Nat) : msbValue (msbBits w v) = v % 2 ^ w := by
  rw [msbValue, msbBits, List.reverse_reverse, lsbValue_lsbBits]

theorem msbBits_msbValue (bs : List Bool) : msbBits bs.length (msbValue bs) = bs := by
  have h := lsbBits_lsbValue bs.reverse
  rw [List.length_reverse] at h
  rw [msbBits, msbValue, h, List.reverse_reverse]

end Sys2Proof.Laws
end

