-- ==== Sys2Proof/Laws/Encoding.lean ====
section
/-! SUPPORT. The laws of well-formedness and encoding by context: which elements a context admits, how each is encoded, and
what a decoder's answer that leaves nothing over is. -/

namespace Sys2Proof.Laws

/-! ### Which elements a context admits -/

/-- A PFE stream holds filter records of one line (30_encoding.md R101, R102). -/
theorem wf_scan {prb : Nat} {i : Instr} (h : wf (.scan prb) i = true) :
    ∃ (f : Filter) (raw : List Byte), i = f.instr raw ∧ raw.length = prb := by
  cases i
  case ftNone raw => exact ⟨.none, raw, rfl, beq_iff_eq.mp h⟩
  case ftSub raw => exact ⟨.sub, raw, rfl, beq_iff_eq.mp h⟩
  case ftUp raw => exact ⟨.up, raw, rfl, beq_iff_eq.mp h⟩
  case ftAvg raw => exact ⟨.avg, raw, rfl, beq_iff_eq.mp h⟩
  case ftPaeth raw => exact ⟨.paeth, raw, rfl, beq_iff_eq.mp h⟩
  all_goals exact Bool.noConfusion h

theorem wf_filter (f : Filter) (raw : List Byte) : wf (.scan raw.length) (f.instr raw) = true := by
  cases f <;> exact beq_self_eq_true _

/-- An RLE8 stream holds the commands of 30_encoding.md R103, R106. -/
theorem wf_rle8 {i : Instr} (h : wf (.rle false) i = true) :
    (∃ n v, i = .rle8Run n v ∧ n ≠ 0) ∨ i = .rleEol ∨ i = .rleEob ∨ (∃ dx dy, i = .rleDelta dx dy) ∨
      ∃ n d, i = .rle8Abs n d ∧ 3 ≤ n.toNat ∧ d.length = n.toNat := by
  cases i
  case rle8Run n v => exact .inl ⟨n, v, rfl, bne_iff_ne.mp h⟩
  case rleEol => exact .inr (.inl rfl)
  case rleEob => exact .inr (.inr (.inl rfl))
  case rleDelta dx dy => exact .inr (.inr (.inr (.inl ⟨dx, dy, rfl⟩)))
  case rle8Abs n d =>
    have h := (Bool.and_eq_true _ _).mp h
    exact .inr (.inr (.inr (.inr ⟨n, d, rfl, of_decide_eq_true h.1, beq_iff_eq.mp h.2⟩)))
  all_goals exact Bool.noConfusion h

/-- An RLE4 stream holds the commands of 30_encoding.md R103, R107, R108. -/
theorem wf_rle4 {i : Instr} (h : wf (.rle true) i = true) :
    (∃ n a b, i = .rle4Run n a b ∧ n ≠ 0) ∨ i = .rleEol ∨ i = .rleEob ∨ (∃ dx dy, i = .rleDelta dx dy) ∨
      ∃ n d, i = .rle4Abs n d ∧ 3 ≤ n.toNat ∧ d.length = ceilDiv n.toNat 2 := by
  cases i
  case rle4Run n a b => exact .inl ⟨n, a, b, rfl, bne_iff_ne.mp h⟩
  case rleEol => exact .inr (.inl rfl)
  case rleEob => exact .inr (.inr (.inl rfl))
  case rleDelta dx dy => exact .inr (.inr (.inr (.inl ⟨dx, dy, rfl⟩)))
  case rle4Abs n d =>
    have h := (Bool.and_eq_true _ _).mp h
    exact .inr (.inr (.inr (.inr ⟨n, d, rfl, of_decide_eq_true h.1, beq_iff_eq.mp h.2⟩)))
  all_goals exact Bool.noConfusion h

/-- An LZD stream holds the code classes of 30_encoding.md R111. -/
theorem wf_lzw {x : LzwCx} {i : Instr} (h : wf (.lzw x) i = true) :
    x.ok = true ∧
      (i = .lzwClear ∨ i = .lzwEoi ∨
        (∃ c, i = .lzwLit c ∧ x.oldValid = false ∧ c.toNat < x.clear) ∨
        (∃ c, i = .lzwRef c ∧ x.oldValid = true ∧ x.isRef c.toNat = true ∧ c.toNat < 2 ^ x.codeSize) ∨
        (i = .lzwKwk ∧ x.oldValid = true ∧ x.avail < 4096 ∧ x.avail < 2 ^ x.codeSize) ∨
        ∃ c, i = .lzwIllegal c ∧ x.isIllegal c.toNat = true ∧ c.toNat < 2 ^ x.codeSize) := by
  cases i
  case lzwClear => exact ⟨h, .inl rfl⟩
  case lzwEoi => exact ⟨h, .inr (.inl rfl)⟩
  case lzwLit c =>
    have h : (x.ok && !x.oldValid && decide (c.toNat < x.clear)) = true := h
    simp only [Bool.and_eq_true, Bool.not_eq_true', decide_eq_true_eq] at h
    exact ⟨h.1.1, .inr (.inr (.inl ⟨c, rfl, h.1.2, h.2⟩))⟩
  case lzwRef c =>
    have h : (x.ok && x.oldValid && x.isRef c.toNat && x.fits c.toNat) = true := h
    simp only [LzwCx.fits, Bool.and_eq_true, decide_eq_true_eq] at h
    exact ⟨h.1.1.1, .inr (.inr (.inr (.inl ⟨c, rfl, h.1.1.2, h.1.2, h.2⟩)))⟩
  case lzwKwk =>
    have h : (x.ok && x.oldValid && decide (x.avail < 4096) && x.fits x.avail) = true := h
    simp only [LzwCx.fits, Bool.and_eq_true, decide_eq_true_eq] at h
    exact ⟨h.1.1.1, .inr (.inr (.inr (.inr (.inl ⟨rfl, h.1.1.2, h.1.2, h.2⟩))))⟩
  case lzwIllegal c =>
    have h : (x.ok && x.isIllegal c.toNat && x.fits c.toNat) = true := h
    simp only [LzwCx.fits, Bool.and_eq_true, decide_eq_true_eq] at h
    exact ⟨h.1.1, .inr (.inr (.inr (.inr (.inr ⟨c, rfl, h.1.2, h.2⟩))))⟩
  all_goals exact Bool.noConfusion h

theorem wf_lzwClear (x : LzwCx) : wf (.lzw x) .lzwClear = x.ok := rfl

theorem wf_lzwEoi (x : LzwCx) : wf (.lzw x) .lzwEoi = x.ok := rfl

theorem wf_lzwLit (x : LzwCx) (c : BitVec 12) :
    wf (.lzw x) (.lzwLit c) = (x.ok && !x.oldValid && decide (c.toNat < x.clear)) := rfl

theorem wf_lzwRef (x : LzwCx) (c : BitVec 12) :
    wf (.lzw x) (.lzwRef c) = (x.ok && x.oldValid && x.isRef c.toNat && x.fits c.toNat) := rfl

theorem wf_lzwKwk (x : LzwCx) :
    wf (.lzw x) .lzwKwk = (x.ok && x.oldValid && decide (x.avail < 4096) && x.fits x.avail) := rfl

theorem wf_lzwIllegal (x : LzwCx) (c : BitVec 12) :
    wf (.lzw x) (.lzwIllegal c) = (x.ok && x.isIllegal c.toNat && x.fits c.toNat) := rfl

/-- A G4E stream holds the elements of one of its tables (30_encoding.md R112, R114). -/
theorem wf_g4 (t : G4Table) (i : Instr) : wf (.g4 t) i = (i.g4Index.map Prod.fst == some t) := by cases i <;> rfl

/-- A table's elements are those whose place is in it. -/
theorem mem_g4Instrs {t : G4Table} {i : Instr} (h : i.g4Index.map Prod.fst = some t) : i ∈ g4Instrs t := by
  have key : i.g4Index.all fun p => (g4Instrs p.1)[p.2]? == some i := by cases i <;> rfl
  cases hp : i.g4Index with
  | none => rw [hp] at h; cases h
  | some p =>
    rw [hp] at h key
    obtain rfl : p.1 = t := Option.some.inj h
    exact List.mem_of_getElem? (beq_iff_eq.mp key)

/-- Writes to the `CTRL` register of a unit (30_encoding.md R116). -/
theorem wf_cmd {u : UnitId} {i : Instr} (h : wf (.cmd u) i = true) : i = .cmdStart u ∨ i = .cmdClear u := by
  cases i
  case cmdStart v => exact .inl (congrArg _ (beq_iff_eq.mp h).symm)
  case cmdClear v => exact .inr (congrArg _ (beq_iff_eq.mp h).symm)
  all_goals exact Bool.noConfusion h

/-! ### How each is encoded -/

theorem encode_filter (prb : Nat) (f : Filter) (raw : List Byte) :
    encode (.scan prb) (f.instr raw) = some (.bytes (f.byte :: raw)) := by cases f <;> rfl

theorem encode_rle8Run (n v : Byte) : encode (.rle false) (.rle8Run n v) = some (.bytes [n, v]) := rfl

theorem encode_rle4Run (n : Byte) (a b : BitVec 4) :
    encode (.rle true) (.rle4Run n a b) = some (.bytes [n, nibbles a b]) := rfl

theorem encode_rleEol (m : Bool) : encode (.rle m) .rleEol = some (.bytes [0, 0]) := by cases m <;> rfl

theorem encode_rleEob (m : Bool) : encode (.rle m) .rleEob = some (.bytes [0, 1]) := by cases m <;> rfl

theorem encode_rleDelta (m : Bool) (dx dy : Byte) :
    encode (.rle m) (.rleDelta dx dy) = some (.bytes [0, 2, dx, dy]) := by cases m <;> rfl

theorem encode_rle8Abs (n : Byte) (d : List Byte) : encode (.rle false) (.rle8Abs n d) = some (.bytes (absBytes n d)) := rfl

theorem encode_rle4Abs (n : Byte) (d : List Byte) : encode (.rle true) (.rle4Abs n d) = some (.bytes (absBytes n d)) := rfl

theorem encode_lzwClear (x : LzwCx) : encode (.lzw x) .lzwClear = some (.bits (x.bits x.clear)) := rfl

theorem encode_lzwEoi (x : LzwCx) : encode (.lzw x) .lzwEoi = some (.bits (x.bits x.eoi)) := rfl

theorem encode_lzwLit (x : LzwCx) (c : BitVec 12) : encode (.lzw x) (.lzwLit c) = some (.bits (x.bits c.toNat)) := rfl

theorem encode_lzwRef (x : LzwCx) (c : BitVec 12) : encode (.lzw x) (.lzwRef c) = some (.bits (x.bits c.toNat)) := rfl

theorem encode_lzwKwk (x : LzwCx) : encode (.lzw x) .lzwKwk = some (.bits (x.bits x.avail)) := rfl

theorem encode_lzwIllegal (x : LzwCx) (c : BitVec 12) :
    encode (.lzw x) (.lzwIllegal c) = some (.bits (x.bits c.toNat)) := rfl

theorem encode_g4 (t : G4Table) (i : Instr) : encode (.g4 t) i = i.g4Word.map fun w => .bits w.bits := by cases i <;> rfl

theorem encode_cmdStart (u v : UnitId) : encode (.cmd u) (.cmdStart v) = some (.word 1) := rfl

theorem encode_cmdClear (u v : UnitId) : encode (.cmd u) (.cmdClear v) = some (.word 2) := rfl

/-! ### Decoders -/

/-- A whole answer is an answer with nothing left over. -/
theorem whole_eq_ok {α : Type} (r : Except Reject (Instr × List α)) (i : Instr) : whole r = .ok i ↔ r = .ok (i, []) := by
  unfold whole
  split <;> simp_all

/-- The word found begins the bits. -/
theorem matchWord_eq_some (bs : List Bool) :
    ∀ (ps : List (CodeWord × Instr)) (p : CodeWord × Instr), matchWord bs ps = some p → p ∈ ps ∧ p.1.bits <+: bs := by
  intro ps
  induction ps with
  | nil => intro p h; cases h
  | cons q ps ih =>
    intro p h
    rw [matchWord] at h
    split at h
    · next hq =>
      obtain rfl : q = p := Option.some.inj h
      exact ⟨List.mem_cons_self, List.isPrefixOf_iff_prefix.mp hq⟩
    · obtain ⟨a, b⟩ := ih p h
      exact ⟨List.mem_cons_of_mem _ a, b⟩

end Sys2Proof.Laws
end

