-- ==== Sys2Proof/Laws/G4.lean ====
section
/-! SUPPORT. The laws of G4E's operations: the bit packer, what follows a mode, the run words. -/

namespace Sys2Proof.Laws

open Sys2Proof.Machine

/-! ### The bit packer -/

/-- A byte is emitted exactly when OUT has room; it goes to `OUT[OUT_LEN]` (20_memory.md R81). -/
theorem emitByte_eq_ok (cfg : Config) (v : Byte) (g h : G4e) :
    g.emitByte cfg v = .ok h ↔
      g.sh.outLen.toNat < cfg.maxOut ∧
        h = { g with sh := { g.sh with
          outBuf := store g.sh.outBuf g.sh.outLen.toNat [v]
          outLen := word (g.sh.outLen.toNat + 1) } } := by
  unfold G4e.emitByte
  dsimp only
  split
  · next hc => simp; omega
  · next hc => simp only [Except.ok.injEq]; constructor <;> rintro h' <;> simp_all

/-- A byte is refused exactly when OUT is full: `E_OVF`, and nothing else changes (42_g4_encoder.md R239). -/
theorem emitByte_eq_error (cfg : Config) (v : Byte) (g h : G4e) :
    g.emitByte cfg v = .error h ↔
      cfg.maxOut ≤ g.sh.outLen.toNat ∧ h = { g with sh := g.sh.raise .ovf g.sh.inPos } := by
  unfold G4e.emitByte
  dsimp only
  split
  · next hc => simp only [Except.error.injEq]; constructor <;> rintro h' <;> simp_all
  · next hc => simp; omega

/-- The unit in either answer of the packer. -/
def packed (r : Except G4e G4e) : G4e :=
  match r with
  | .ok g => g
  | .error g => g

@[simp] theorem packed_ok (g : G4e) : packed (.ok g) = g := rfl

@[simp] theorem packed_error (g : G4e) : packed (.error g) = g := rfl

@[simp] theorem thenDo_ok (g : G4e) (k : G4e → G4e) : G4e.thenDo (.ok g) k = k g := rfl

/-- A word that overflowed ends the element: nothing follows it (42_g4_encoder.md R239). -/
@[simp] theorem thenDo_error (g : G4e) (k : G4e → G4e) : G4e.thenDo (.error g) k = g := rfl

theorem thenDo_id (r : Except G4e G4e) : G4e.thenDo r id = packed r := by cases r <;> rfl

/-- The packer changes `ACC`, `FREE`, `OUT`, `OUT_LEN` and, in a fault, the status fields; nothing else. -/
def PackerFrame (g h : G4e) : Prop :=
  h = { g with
    acc := h.acc
    free := h.free
    sh := { g.sh with
      outBuf := h.sh.outBuf
      outLen := h.sh.outLen
      state := h.sh.state
      err := h.sh.err
      flags := h.sh.flags
      errPos := h.sh.errPos } }

theorem packerFrame_refl (g : G4e) : PackerFrame g g := rfl

theorem packerFrame_trans {a b c : G4e} (h : PackerFrame a b) (k : PackerFrame b c) : PackerFrame a c := by
  unfold PackerFrame at *
  rw [k, h]

theorem emitAcc_frame (cfg : Config) (g : G4e) : PackerFrame g (packed (g.emitAcc cfg)) := by
  unfold G4e.emitAcc
  cases h : g.emitByte cfg g.acc with
  | error e => obtain ⟨-, rfl⟩ := (emitByte_eq_error ..).mp h; rfl
  | ok e => obtain ⟨-, rfl⟩ := (emitByte_eq_ok ..).mp h; rfl

theorem pack_frame (cfg : Config) : ∀ (fuel len code : Nat) (g : G4e), PackerFrame g (packed (g.pack cfg fuel len code)) := by
  intro fuel
  induction fuel with
  | zero => intro len code g; exact packerFrame_refl g
  | succ fuel ih =>
    intro len code g
    rw [G4e.pack]
    dsimp only
    split
    · have h1 := emitAcc_frame cfg { g with acc := g.acc ||| BitVec.ofNat 8 (code >>> (len - g.free.toNat)) }
      cases h : G4e.emitAcc cfg { g with acc := g.acc ||| BitVec.ofNat 8 (code >>> (len - g.free.toNat)) } with
      | error e => rw [h] at h1; exact packerFrame_trans (b := { g with acc := g.acc ||| BitVec.ofNat 8 (code >>> (len - g.free.toNat)) }) rfl h1
      | ok e =>
        rw [h] at h1
        exact packerFrame_trans (packerFrame_trans (b := { g with acc := g.acc ||| BitVec.ofNat 8 (code >>> (len - g.free.toNat)) }) rfl h1) (ih _ _ _)
    · split
      · exact packerFrame_trans (b := { g with
          acc := g.acc ||| BitVec.ofNat 8 (code <<< (g.free.toNat - len))
          free := BitVec.ofNat 4 (g.free.toNat - len) }) rfl (emitAcc_frame cfg _)
      · rfl

/-- `putbits` changes the packer and `OUT`, and in an overflow the status fields. -/
theorem putbits_frame (cfg : Config) (c : CodeWord) (g : G4e) : PackerFrame g (packed (g.putbits cfg c)) :=
  pack_frame cfg _ _ _ g

/-- A fault of the packer is `E_OVF` at the cursor, with OUT full. -/
theorem emitAcc_fault (cfg : Config) (g h : G4e) (he : g.emitAcc cfg = .error h) :
    h.sh.state = .fault ∧ h.sh.err = .ovf ∧ h.sh.errPos = g.sh.inPos ∧ h.sh.flags = .clear ∧
      cfg.maxOut ≤ h.sh.outLen.toNat := by
  unfold G4e.emitAcc at he
  cases hb : g.emitByte cfg g.acc with
  | error e =>
    rw [hb] at he
    obtain rfl : e = h := by simpa using he
    obtain ⟨hle, rfl⟩ := (emitByte_eq_error ..).mp hb
    exact ⟨rfl, rfl, rfl, rfl, hle⟩
  | ok e => rw [hb] at he; simp at he

/-! ### After a mode -/

theorem afterMode_end (g : G4e) (h : g.width ≤ g.a0.toNat) : g.afterMode = g.endRow := by rw [G4e.afterMode, if_pos h]

theorem afterMode_advance (g : G4e) (h : g.a0.toNat < g.width) : g.afterMode = g.advance := by
  rw [G4e.afterMode, if_neg (by omega)]

theorem finddiff_bounds (pix : Nat → Bool) (bs be : Nat) (k : Bool) (h : bs ≤ be) :
    bs ≤ finddiff pix bs be k ∧ finddiff pix bs be k ≤ be := by
  have key : ∀ (c : Bool) (n x : Nat), spanFrom pix c x n ≤ n := by
    intro c n
    induction n with
    | zero => intro x; exact le_refl _
    | succ n ih => intro x; rw [spanFrom]; split <;> [have := ih (x + 1); skip] <;> omega
  have h0 := key false (be - bs) bs
  have h1 := key true (be - bs) bs
  unfold finddiff find0span find1span
  split <;> omega

/-! ### Run words -/

/-- Every run word of a well-formed instance has its code, which is one `putbits` takes (10_state.md R43). -/
theorem runCode_isSome (cfg : Config) (w : RunWord) (h : cfg.wf = true) : ∃ c, runCode cfg w = some c ∧ c.ok = true := by
  have hw : w.index.val < 104 := w.index.isLt
  have key : ∀ t : List CodeWord, runTabOk t = true → ∃ c, t[w.index.val]? = some c ∧ c.ok = true := by
    intro t ht
    simp only [runTabOk, Bool.and_eq_true, beq_iff_eq, List.all_eq_true] at ht
    have hl : w.index.val < t.length := by omega
    exact ⟨t[w.index.val], List.getElem?_eq_getElem hl, ht.1.2 _ (List.getElem_mem hl)⟩
  simp only [Config.wf, Bool.and_eq_true] at h
  unfold runCode
  cases w.colour
  · exact key _ h.1.2
  · exact key _ h.2

/-- The element of every run word, whatever its index. -/
theorem emitRun_eq (w : RunWord) (s : State) (c : CodeWord) (h : runCode s.cfg w = some c) :
    emitRun w s = .next { s with g4e := packed (s.g4e.putbits s.cfg c) } := by
  unfold emitRun G4e.packRun
  rw [h]
  simp only [thenDo_id, settle_ok]

end Sys2Proof.Laws
end

