-- ==== Sys2Proof/Laws/Lzd.lean ====
section
/-! SUPPORT. The laws of LZD's operations: fetch, strings, output append, table growth. -/

namespace Sys2Proof.Laws

open Sys2Proof.Machine

/-! ### Fetch -/

/-- Loading changes the bit buffer and the cursor only. -/
theorem fill_frame (n : Nat) : ∀ l : Lzd,
    (l.fill n).1 = { l with
      datum := (l.fill n).1.datum
      nbits := (l.fill n).1.nbits
      sh := { l.sh with inPos := (l.fill n).1.sh.inPos } } := by
  induction n with
  | zero => intro l; rfl
  | succ n ih =>
    intro l
    rw [Lzd.fill]
    split
    · split
      · rfl
      · exact ih l.load
    · rfl

/-- Taking a code changes the bit buffer only. -/
theorem take_frame (l : Lzd) : l.take.2 = { l with datum := l.take.2.datum, nbits := l.take.2.nbits } := by
  unfold Lzd.take
  split <;> rfl

/-- A code's value is what the variant takes of the accumulator (41_lzw.md R183, R184). -/
theorem take_value (l : Lzd) (h : l.codeSize.toNat ≤ 12) :
    l.take.1.toNat =
      (if l.tiff then l.datum.toNat / 2 ^ (l.nbits.toNat - l.codeSize.toNat) else l.datum.toNat) %
        2 ^ l.codeSize.toNat := by
  have key : ∀ v, (BitVec.ofNat 12 (v % 2 ^ l.codeSize.toNat)).toNat = v % 2 ^ l.codeSize.toNat := by
    intro v
    rw [BitVec.toNat_ofNat]
    exact Nat.mod_eq_of_lt (lt_of_lt_of_le (Nat.mod_lt _ (by positivity)) (Nat.pow_le_pow_right (by norm_num) h))
  unfold Lzd.take
  split
  · next ht => rw [← Nat.shiftRight_eq_div_pow]; exact key _
  · next ht => exact key _

/-! ### Strings -/

/-- More fuel finds the same string. -/
theorem expandIn_mono (l : Lzd) : ∀ (m n k : Nat) (str : List Byte), l.expandIn m k = some str → m ≤ n →
    l.expandIn n k = some str := by
  intro m
  induction m with
  | zero => intro n k str h; simp [Lzd.expandIn] at h
  | succ m ih =>
    intro n k str h hn
    obtain ⟨n, rfl⟩ : ∃ n', n = n' + 1 := ⟨n - 1, by omega⟩
    rw [Lzd.expandIn] at h ⊢
    split
    · next hk => rwa [if_pos hk] at h
    · next hk =>
      rw [if_neg hk] at h
      split
      · next hr =>
        rw [if_pos hr] at h
        obtain ⟨p, hp, rfl⟩ := Option.map_eq_some_iff.mp h
        rw [ih n _ p hp (by omega)]
        rfl
      · next hr => rw [if_neg hr] at h; simp at h

/-- A string has at least one byte. -/
theorem expandIn_ne_nil (l : Lzd) : ∀ (n k : Nat), l.expandIn n k ≠ some [] := by
  intro n
  cases n with
  | zero => intro k; simp [Lzd.expandIn]
  | succ n =>
    intro k
    rw [Lzd.expandIn]
    split
    · simp
    · split <;> simp

/-- Strings depend on the table below `AVAIL` only: two units with the same depth and the same cells have the same strings
for the codes below the smaller `AVAIL`. -/
theorem expandIn_congr (l m : Lzd) (hd : l.cx.n = m.cx.n) (ha : l.avail.toNat ≤ m.avail.toNat)
    (hp : ∀ k, k < l.avail.toNat → l.prefixAt k = m.prefixAt k)
    (hs : ∀ k, k < l.avail.toNat → l.suffixAt k = m.suffixAt k) :
    ∀ (n k : Nat) (str : List Byte), l.expandIn n k = some str → m.expandIn n k = some str := by
  intro n
  induction n with
  | zero => intro k str h; simp [Lzd.expandIn] at h
  | succ n ih =>
    intro k str h
    have hc : l.cx.clear = m.cx.clear := by simp only [LzwCx.clear, hd]
    have hf : l.cx.firstFree = m.cx.firstFree := by simp only [LzwCx.firstFree, hd]
    rw [Lzd.expandIn] at h ⊢
    split
    · next hk => rwa [hc, if_pos hk] at h
    · next hk =>
      rw [hc, if_neg hk] at h
      split at h
      · next hr =>
        have hr' : k < l.avail.toNat := hr.2
        rw [if_pos ⟨by rw [← hf]; exact hr.1, lt_of_lt_of_le hr.2 ha⟩]
        obtain ⟨p, hp', rfl⟩ := Option.map_eq_some_iff.mp h
        rw [← hp k hr', ih _ p hp', ← hs k hr']
        rfl
      · simp at h

/-! ### Output and table -/

/-- An append answers exactly when the kept bytes stay inside OUT, and changes `OUT` and `OUT_LEN` only
(41_lzw.md R197). -/
theorem append_eq_ok (cfg : Config) (str : List Byte) (l m : Lzd) :
    l.append cfg str = .ok m ↔
      l.sh.outLen.toNat + min (l.outMax - l.sh.outLen.toNat) str.length ≤ cfg.maxOut ∧
        m = { l with sh := { l.sh with
          outBuf := store l.sh.outBuf l.sh.outLen.toNat (str.take (l.outMax - l.sh.outLen.toNat))
          outLen := word (l.sh.outLen.toNat + min (l.outMax - l.sh.outLen.toNat) str.length) } } := by
  unfold Lzd.append
  simp only [Shell.storeOut, List.length_take]
  split
  · next sh h =>
    split at h
    · next hle => simp only [Except.ok.injEq] at h; subst h; simp [hle, eq_comm]
    · simp at h
  · next f h =>
    split at h
    · simp at h
    · next hle => simp [hle]

/-- The table after an entry is added, while it is not full (41_lzw.md R193). -/
theorem addEntry_frame (o : BitVec 12) (f : Byte) (l : Lzd) :
    l.addEntry o f = { l with
      prefixTab := (l.addEntry o f).prefixTab
      suffixTab := (l.addEntry o f).suffixTab
      avail := (l.addEntry o f).avail
      codeSize := (l.addEntry o f).codeSize } := by
  unfold Lzd.addEntry
  split <;> rfl

theorem addEntry_full (o : BitVec 12) (f : Byte) (l : Lzd) (h : 4096 ≤ l.avail.toNat) : l.addEntry o f = l := by
  rw [Lzd.addEntry, if_neg (by omega)]

theorem addEntry_avail (o : BitVec 12) (f : Byte) (l : Lzd) (h : l.avail.toNat < 4096) :
    (l.addEntry o f).avail.toNat = l.avail.toNat + 1 := by
  rw [Lzd.addEntry, if_pos h]
  simp only [BitVec.toNat_ofNat]
  omega

theorem addEntry_codeSize (o : BitVec 12) (f : Byte) (l : Lzd) (h : l.avail.toNat < 4096) :
    (l.addEntry o f).codeSize.toNat =
      if l.avail.toNat + 1 = l.growAt ∧ l.codeSize.toNat < 12 then l.codeSize.toNat + 1 else l.codeSize.toNat := by
  rw [Lzd.addEntry, if_pos h]
  dsimp only
  split
  · next hg => rw [BitVec.toNat_ofNat]; omega
  · rfl

theorem addEntry_prefixAt (o : BitVec 12) (f : Byte) (l : Lzd) (k : Nat) :
    (l.addEntry o f).prefixAt k = if k = l.avail.toNat ∧ k < 4096 then o else l.prefixAt k := by
  unfold Lzd.addEntry Lzd.prefixAt
  by_cases h : l.avail.toNat < 4096
  · rw [if_pos h]
    dsimp only
    by_cases hk : k = l.avail.toNat
    · subst hk
      rw [if_pos ⟨rfl, h⟩]
      simpa using cell_store_inside .prefixTab l.sh.inGen l.prefixTab l.avail.toNat [o] 0 (by simp)
    · rw [if_neg (fun c => hk c.1)]
      exact cell_store_outside _ _ _ _ _ _ (by simp only [List.length_singleton]; omega)
  · rw [if_neg h, if_neg (by omega)]

theorem addEntry_suffixAt (o : BitVec 12) (f : Byte) (l : Lzd) (k : Nat) :
    (l.addEntry o f).suffixAt k = if k = l.avail.toNat ∧ k < 4096 then f else l.suffixAt k := by
  unfold Lzd.addEntry Lzd.suffixAt
  by_cases h : l.avail.toNat < 4096
  · rw [if_pos h]
    dsimp only
    by_cases hk : k = l.avail.toNat
    · subst hk
      rw [if_pos ⟨rfl, h⟩]
      simpa using cell_store_inside .suffixTab l.sh.inGen l.suffixTab l.avail.toNat [f] 0 (by simp)
    · rw [if_neg (fun c => hk c.1)]
      exact cell_store_outside _ _ _ _ _ _ (by simp only [List.length_singleton]; omega)
  · rw [if_neg h, if_neg (by omega)]

/-- `LZW.REF` and `LZW.KWK` answer exactly when the append does; then the first byte, the entry and the code are set
(41_lzw.md R191, R192). -/
theorem emit_eq_ok (cfg : Config) (c : BitVec 12) (f : Byte) (str : List Byte) (l m : Lzd) :
    l.emit cfg c (f :: str) = .ok m ↔
      ∃ l1, l.append cfg (f :: str) = .ok l1 ∧ m = { Lzd.addEntry l1.old f { l1 with first := f } with old := c } := by
  unfold Lzd.emit
  cases h : l.append cfg (f :: str) with
  | error e => simp
  | ok l1 => simp [eq_comm]

end Sys2Proof.Laws
end

