-- ==== Sys2Proof/Laws/Pfe.lean ====
section
/-! SUPPORT. The laws of PFE's operations: the reconstruction loop, masked stores, the next pass, the scanline step. -/

namespace Sys2Proof.Laws

open Sys2Proof.Machine

@[simp] theorem bpp_pos (p : Pfe) : 0 < p.bpp := by simp [Pfe.bpp]

/-! ### Reconstruction -/

theorem currAt_store (p : Pfe) (k : Nat) (v : Byte) (j : Nat) :
    ({ p with curr := store p.curr k [v] } : Pfe).currAt j = if j = k then v else p.currAt j := by
  unfold Pfe.currAt
  split
  · next h => subst h; simpa using cell_store_inside .curr p.sh.inGen p.curr j [v] 0 (by simp)
  · next h => exact cell_store_outside _ _ _ _ _ _ (by simp; omega)

/-- The loop changes `CURR` only. -/
theorem reconstruct_frame (f : Filter) (raw : List Byte) : ∀ (k : Nat) (p : Pfe),
    p.reconstruct f k raw = { p with curr := (p.reconstruct f k raw).curr } := by
  induction raw with
  | nil => intro k p; rfl
  | cons r rs ih => intro k p; rw [Pfe.reconstruct]; exact ih _ _

/-- The loop leaves the cells outside its bytes. -/
theorem reconstruct_outside (f : Filter) (raw : List Byte) : ∀ (k : Nat) (p : Pfe) (j : Nat),
    j < k ∨ k + raw.length ≤ j → (p.reconstruct f k raw).currAt j = p.currAt j := by
  induction raw with
  | nil => intro k p j _; rfl
  | cons r rs ih =>
    intro k p j h
    simp only [List.length_cons] at h
    rw [Pfe.reconstruct, ih _ _ _ (by omega), currAt_store, if_neg (by omega)]

/-- Every byte the loop reconstructs (40_png_filter.md R144, R150): the raw byte plus the prediction from the finished
line and the prior line. -/
theorem reconstruct_inside (f : Filter) (raw : List Byte) : ∀ (k : Nat) (p : Pfe) (j : Nat) (h : j < raw.length),
    (p.reconstruct f k raw).currAt (k + j) =
      addByte raw[j] (predict f
        (if p.bpp ≤ k + j then ((p.reconstruct f k raw).currAt (k + j - p.bpp)).toNat else 0)
        (p.above (k + j)) (p.aboveLeft (k + j))) := by
  induction raw with
  | nil => intro k p j h; simp at h
  | cons r rs ih =>
    intro k p j h
    have hb := bpp_pos p
    cases j with
    | zero =>
      rw [Pfe.reconstruct]
      simp only [Nat.add_zero, List.getElem_cons_zero]
      rw [reconstruct_outside _ _ _ _ _ (by omega), currAt_store, if_pos rfl]
      congr 2
      unfold Pfe.leftOf
      split
      · rw [reconstruct_outside _ _ _ _ _ (by omega), currAt_store, if_neg (by omega)]
      · rfl
    | succ j =>
      have h' : j < rs.length := by simpa using h
      rw [Pfe.reconstruct]
      have := ih (k + 1) { p with curr := store p.curr k [addByte r (predict f (p.leftOf k) (p.above k) (p.aboveLeft k))] } j h'
      rw [show k + (j + 1) = k + 1 + j by omega, this]
      rfl

/-! ### Masked stores -/

/-- Masked stores inside OUT all happen; they change OUT only, and every byte is what its own pokes make of it in
order. -/
theorem pokes_fit (maxOut : Nat) (ks : List Poke) : ∀ (sh : Shell), (∀ k ∈ ks, k.cellAt < maxOut) →
    ∃ sh', sh.pokes maxOut ks = .ok sh' ∧ sh' = { sh with outBuf := sh'.outBuf } ∧
      ∀ a, sh'.outByte .pfe a =
        (ks.filter fun k => decide (k.cellAt = a)).foldl (fun b k => (b &&& ~~~k.mask) ||| k.val) (sh.outByte .pfe a) := by
  induction ks with
  | nil => intro sh _; exact ⟨sh, rfl, rfl, fun a => rfl⟩
  | cons k ks ih =>
    intro sh h
    have hk : k.cellAt < maxOut := h k (by simp)
    obtain ⟨sh', h1, h2, h3⟩ := ih
      { sh with outBuf := store sh.outBuf k.cellAt [(sh.outByte .pfe k.cellAt &&& ~~~k.mask) ||| k.val] }
      (fun j hj => h j (by simp [hj]))
    refine ⟨sh', ?_, ?_, ?_⟩
    · rw [Shell.pokes, Shell.poke, storeOut_fits (by simp; omega)]
      exact h1
    · rw [h2]
    · intro a
      rw [h3 a, outByte_store, List.filter_cons]
      by_cases e : k.cellAt = a
      · subst e; simp
      · rw [if_neg (by simp; omega), if_neg (by simpa using e)]

/-! ### Passes -/

/-- The first pass with scanlines in a list: everything before it is empty. -/
theorem firstFull_spec (p : Pfe) (gs : List PassGeom) : ∀ k,
    k ≤ p.firstFull k gs ∧ p.firstFull k gs ≤ k + gs.length ∧
      (∀ j g, k + j < p.firstFull k gs → gs[j]? = some g → p.passFull g = false) ∧
      ∀ g, gs[p.firstFull k gs - k]? = some g → p.passFull g = true := by
  induction gs with
  | nil => intro k; refine ⟨le_refl _, le_refl _, ?_, ?_⟩ <;> simp
  | cons g gs ih =>
    intro k
    rw [Pfe.firstFull]
    split
    · next h => refine ⟨le_refl _, by simp, fun j g' hj => by omega, by simpa using h⟩
    · next h =>
      obtain ⟨h1, h2, h3, h4⟩ := ih (k + 1)
      refine ⟨by omega, by simp only [List.length_cons]; omega, ?_, ?_⟩
      · intro j g' hj hg
        cases j with
        | zero => simp at hg; subst hg; simpa using h
        | succ j => exact h3 j g' (by omega) (by simpa using hg)
      · intro g' hg
        apply h4 g'
        rw [show p.firstFull (k + 1) gs - k = (p.firstFull (k + 1) gs - (k + 1)) + 1 by omega] at hg
        simpa using hg

/-- The pass after pass `q`: the least later one with scanlines, or the number of passes (40_png_filter.md R155). -/
theorem nextPass_spec (p : Pfe) (q : Nat) (hq : q < p.passes.length) :
    q < p.nextPass q ∧ p.nextPass q ≤ p.passes.length ∧
      (∀ m g, q < m → m < p.nextPass q → p.passes[m]? = some g → p.passFull g = false) ∧
      ∀ g, p.passes[p.nextPass q]? = some g → p.passFull g = true := by
  obtain ⟨h1, h2, h3, h4⟩ := firstFull_spec p (p.passes.drop (q + 1)) (q + 1)
  rw [List.length_drop] at h2
  refine ⟨by unfold Pfe.nextPass; omega, by unfold Pfe.nextPass; omega, ?_, ?_⟩
  · intro m g hm hlt hg
    apply h3 (m - (q + 1)) g
    · unfold Pfe.nextPass at hlt; omega
    · rw [List.getElem?_drop, show q + 1 + (m - (q + 1)) = m by omega]; exact hg
  · intro g hg
    apply h4 g
    rw [List.getElem?_drop, show q + 1 + (p.firstFull (q + 1) (p.passes.drop (q + 1)) - (q + 1)) = p.nextPass q by
      unfold Pfe.nextPass; omega]
    exact hg

/-- The passes and the next pass depend on the configuration only. -/
theorem passes_congr {p q : Pfe} (h2 : p.sh.cfg2 = q.sh.cfg2) : p.passes = q.passes := by
  unfold Pfe.passes Pfe.interlaced
  rw [h2]

theorem passFull_congr {p q : Pfe} (h0 : p.sh.cfg0 = q.sh.cfg0) (h1 : p.sh.cfg1 = q.sh.cfg1) (g : PassGeom) :
    p.passFull g = q.passFull g := by
  simp only [Pfe.passFull, Pfe.passWidth, Pfe.passHeight, Pfe.width, Pfe.height, h0, h1]

theorem nextPass_congr {p q : Pfe} (h0 : p.sh.cfg0 = q.sh.cfg0) (h1 : p.sh.cfg1 = q.sh.cfg1) (h2 : p.sh.cfg2 = q.sh.cfg2)
    (n : Nat) : p.nextPass n = q.nextPass n := by
  have key : ∀ (gs : List PassGeom) (k : Nat), p.firstFull k gs = q.firstFull k gs := by
    intro gs
    induction gs with
    | nil => intro k; rfl
    | cons g gs ih => intro k; simp only [Pfe.firstFull, passFull_congr h0 h1 g, ih]
  rw [Pfe.nextPass, Pfe.nextPass, passes_congr h2, key]

theorem endPass_some (p : Pfe) (q : Nat) (g : PassGeom) (h : p.nextPass p.pass.toNat = q) (hg : p.passes[q]? = some g) :
    p.endPass = p.enterPass q g := by
  subst h
  unfold Pfe.endPass
  dsimp only
  rw [hg]

theorem endPass_none (p : Pfe) (q : Nat) (h : p.nextPass p.pass.toNat = q) (hg : p.passes[q]? = none) :
    p.endPass = { p with pass := BitVec.ofNat 4 q, sh := p.sh.finish p.sh.endFlags } := by
  subst h
  unfold Pfe.endPass
  dsimp only
  rw [hg]

/-! ### The scanline step -/

/-- The scanline step answers exactly when the line fits `CURR`, a row is due, the pass exists and the placement stays
inside OUT; then it is reconstruction, placement, and what follows a scanline. -/
theorem scanline_eq_ok (cfg : Config) (f : Filter) (raw : List Byte) (p q : Pfe) :
    p.scanline cfg f raw = .ok q ↔
      raw.length ≤ lineCells cfg ∧ p.row.toNat < p.ph.toNat ∧
        ∃ g sh, p.passes[p.pass.toNat]? = some g ∧ (p.reconstruct f 0 raw).place cfg g = .ok sh ∧
          q = Pfe.endScanline { p.reconstruct f 0 raw with sh := sh } := by
  unfold Pfe.scanline
  split
  · next h => simp; omega
  · next h =>
    split
    · next h' => simp; omega
    · next h' =>
      cases hg : p.passes[p.pass.toNat]? with
      | none => simp
      | some g =>
        simp only [Option.some.injEq]
        cases hp : (p.reconstruct f 0 raw).place cfg g with
        | error e => simp [hp]
        | ok sh =>
          simp only [Except.ok.injEq]
          constructor
          · rintro rfl; exact ⟨by omega, by omega, g, sh, rfl, hp, rfl⟩
          · rintro ⟨-, -, g', sh', rfl, h1, rfl⟩
            rw [hp, Except.ok.injEq] at h1
            rw [h1]

end Sys2Proof.Laws
end

