-- ==== Sys2Proof/Laws/Rld.lean ====
section
/-! SUPPORT. The laws of RLD's operations: the pixels of commands and the write of a run. -/

namespace Sys2Proof.Laws

open Sys2Proof.Machine

/-- A run of pixels answers exactly when it does not fit the canvas row, or its cells stay inside OUT; in the first case it
is the fault `E_BOUNDS`, in the second the store, the column and the cursor (43_bmp_rle.md R272). -/
theorem putRun_eq_ok (cfg : Config) (px : List Byte) (len : Nat) (r q : Rld) :
    r.putRun cfg px len = .ok q ↔
      (r.inside px.length = false ∧ q = { r with sh := r.sh.raise .bounds r.sh.inPos }) ∨
        (r.inside px.length = true ∧ r.pixelCell + px.length ≤ cfg.maxOut ∧
          q = { r with
            sh := ({ r.sh with outBuf := store r.sh.outBuf r.pixelCell px } : Shell).advance len
            x := word (r.x.toNat + px.length) }) := by
  unfold Rld.putRun
  cases h : r.inside px.length with
  | false => simp [eq_comm]
  | true =>
    simp only [if_true, Bool.true_eq_false, false_and, false_or, true_and]
    unfold Shell.storeOut
    split
    · next f h' => split at h' <;> simp_all
    · next sh h' =>
      split at h'
      · next hle => simp only [Except.ok.injEq] at h'; subst h'; simp [hle, eq_comm]
      · simp at h'

@[simp] theorem alternating_length (n : Nat) : ∀ a b, (alternating n a b).length = n := by
  induction n with
  | zero => intro a b; rfl
  | succ n ih => intro a b; simp [alternating, ih]

theorem alternating_getElem? (n : Nat) : ∀ a b i,
    (alternating n a b)[i]? = if i < n then some (if i % 2 = 0 then a else b) else none := by
  induction n with
  | zero => intro a b i; simp [alternating]
  | succ n ih =>
    intro a b i
    cases i with
    | zero => simp [alternating]
    | succ i =>
      rw [alternating, List.getElem?_cons_succ, ih]
      simp only [Nat.add_lt_add_iff_right]
      rcases Nat.mod_two_eq_zero_or_one i with h | h
      · rw [if_pos h, if_neg (by omega : ¬(i + 1) % 2 = 0)]
      · rw [if_neg (by omega : ¬i % 2 = 0), if_pos (by omega : (i + 1) % 2 = 0)]

theorem twoPixels_flatMap_length (d : List Byte) : (d.flatMap twoPixels).length = 2 * d.length := by
  induction d with
  | nil => rfl
  | cons b d ih => rw [List.flatMap_cons, List.length_append, ih, List.length_cons]; simp [twoPixels]; omega

theorem twoPixels_flatMap_getElem? (d : List Byte) : ∀ i,
    (d.flatMap twoPixels)[i]? =
      (d[i / 2]?).map fun b => if i % 2 = 0 then (hiNibble b).setWidth 8 else (loNibble b).setWidth 8 := by
  induction d with
  | nil => intro i; simp
  | cons b d ih =>
    intro i
    match i with
    | 0 => simp [twoPixels]
    | 1 => simp [twoPixels]
    | i + 2 =>
      rw [List.flatMap_cons, List.getElem?_append_right (by simp [twoPixels])]
      rw [show i + 2 - (twoPixels b).length = i by simp [twoPixels], ih,
        show (i + 2) / 2 = i / 2 + 1 by omega, List.getElem?_cons_succ, show (i + 2) % 2 = i % 2 by omega]

/-- An absolute run of `n` pixels has its pixels where the data holds them (30_encoding.md R107). -/
theorem abs4Pixels_length (n : Nat) (d : List Byte) (h : n ≤ 2 * d.length) : (abs4Pixels n d).length = n := by
  rw [abs4Pixels, List.length_take, twoPixels_flatMap_length, Nat.min_eq_left h]

end Sys2Proof.Laws
end

