-- ==== Sys2Proof/Laws/Turns.lean ====
section
/-! SUPPORT. The laws of turns: what each agent's step is, by cases, so that later proofs never unfold a step. -/

namespace Sys2Proof.Laws

open Sys2Proof.Machine

/-! ### Whose turn it is -/

/-- Taking a turn changes the turns granted and nothing else. -/
theorem takeTurn_frame (s : State) :
    s.takeTurn.2 = { s with sched := s.takeTurn.2.sched, tick := s.takeTurn.2.tick } := by
  unfold State.takeTurn
  split <;> rfl

theorem takeTurn_cons (s : State) (a : Agent) (rest : List Agent) (h : s.sched = a :: rest) :
    s.takeTurn = (a, { s with sched := rest }) := by
  unfold State.takeTurn
  rw [h]

/-- With no turn granted, the next stretch is a free list followed by the next agent of the round (log 6). -/
theorem takeTurn_nil (s : State) (h : s.sched = []) :
    ∃ a rest, freeTurns s.tick ++ [roundAgent s.tick] = a :: rest ∧
      s.takeTurn = (a, { s with sched := rest, tick := s.tick + 1 }) := by
  unfold State.takeTurn
  rw [h]
  cases hf : freeTurns s.tick with
  | nil => exact ⟨_, _, rfl, rfl⟩
  | cons a l => exact ⟨_, _, rfl, rfl⟩

@[simp] theorem takeTurn_cfg (s : State) : s.takeTurn.2.cfg = s.cfg := by rw [takeTurn_frame]

@[simp] theorem takeTurn_pfe (s : State) : s.takeTurn.2.pfe = s.pfe := by rw [takeTurn_frame]

@[simp] theorem takeTurn_lzd (s : State) : s.takeTurn.2.lzd = s.lzd := by rw [takeTurn_frame]

@[simp] theorem takeTurn_g4e (s : State) : s.takeTurn.2.g4e = s.g4e := by rw [takeTurn_frame]

@[simp] theorem takeTurn_rld (s : State) : s.takeTurn.2.rld = s.rld := by rw [takeTurn_frame]

@[simp] theorem takeTurn_hostQ (s : State) : s.takeTurn.2.hostQ = s.hostQ := by rw [takeTurn_frame]

@[simp] theorem takeTurn_shell (s : State) (u : UnitId) : s.takeTurn.2.shell u = s.shell u := by
  rw [takeTurn_frame]; cases u <;> rfl

theorem step_eq (s : State) : step s = agentStep s.takeTurn.1 s.takeTurn.2 := rfl

theorem step_host (s s1 : State) (h : s.takeTurn = (.host, s1)) : step s = hostStep s1 := by rw [step_eq, h]; rfl

theorem step_unit (s s1 : State) (u : UnitId) (h : s.takeTurn = (.unit u, s1)) : step s = unitStep u s1 := by
  rw [step_eq, h]; rfl

/-! ### A unit's turn -/

theorem busy_iff (sh : Shell) : sh.busy = true ↔ sh.state = .busy := by simp [Shell.busy]

theorem unitStep_idle (u : UnitId) (s : State) (h : (s.shell u).state ≠ .busy) : unitStep u s = .next s := by
  unfold unitStep
  rw [if_neg (fun hb => h ((busy_iff _).mp hb))]

theorem unitStep_pfe (s : State) (h : s.pfe.sh.state = .busy) : unitStep .pfe s = pfeStep s := by
  simp [unitStep, Shell.busy, h]

theorem unitStep_lzd (s : State) (h : s.lzd.sh.state = .busy) : unitStep .lzd s = lzdStep s := by
  simp [unitStep, Shell.busy, h]

theorem unitStep_g4e (s : State) (h : s.g4e.sh.state = .busy) : unitStep .g4e s = g4eStep s := by
  simp [unitStep, Shell.busy, h]

theorem unitStep_rld (s : State) (h : s.rld.sh.state = .busy) : unitStep .rld s = rldStep s := by
  simp [unitStep, Shell.busy, h]

theorem pfeStep_runs (s : State) (i : Instr) (h : s.pfe.fetch = .ok i) : pfeStep s = exec i s := by simp [pfeStep, h]

theorem pfeStep_faults (s : State) (e : ErrCode) (h : s.pfe.fetch = .error e) :
    pfeStep s = .next { s with pfe := { s.pfe with sh := s.pfe.sh.raise e s.pfe.sh.inPos } } := by simp [pfeStep, h]

theorem rldStep_runs (s : State) (i : Instr) (h : s.rld.fetch = .ok i) : rldStep s = exec i s := by simp [rldStep, h]

theorem rldStep_faults (s : State) (e : ErrCode) (h : s.rld.fetch = .error e) :
    rldStep s = .next { s with rld := { s.rld with sh := s.rld.sh.raise e s.rld.sh.inPos } } := by simp [rldStep, h]

theorem lzdStep_full (s : State) (h : s.lzd.outMax ≤ s.lzd.sh.outLen.toNat) :
    lzdStep s = .next { s with lzd := s.lzd.finish false } := by rw [lzdStep, if_pos h]

theorem lzdStep_exhausted (s : State) (l : Lzd) (h : s.lzd.sh.outLen.toNat < s.lzd.outMax) (hf : s.lzd.fill 2 = (l, false)) :
    lzdStep s = .next { s with lzd := l.finish true } := by rw [lzdStep, if_neg (by omega), hf]

theorem lzdStep_runs (s : State) (l : Lzd) (h : s.lzd.sh.outLen.toNat < s.lzd.outMax) (hf : s.lzd.fill 2 = (l, true)) :
    lzdStep s = exec (classify l.take.2.cx l.take.1) { s with lzd := l.take.2 } := by
  rw [lzdStep, if_neg (by omega), hf]; rfl

/-! ### G4E's packing of run words -/

@[simp] theorem drain_nil (s : State) : drain [] s = .next s := rfl

theorem drain_cons (s : State) (w : RunWord) (ws : List RunWord) (i : Instr) (t : State) (hi : w.instr = some i)
    (h : exec i { s with g4e := { s.g4e with pend := ws } } = .next t) :
    drain (w :: ws) s = if t.g4e.sh.busy then drain ws t else .next t := by
  rw [drain, hi]
  simp only [h]

theorem runMode_next (s t : State) (i : Instr) (h : exec i s = .next t) :
    runMode i s = if t.g4e.sh.busy then drain t.g4e.pend t else .next t := by
  rw [runMode, h]

/-! ### The host -/

theorem hostStep_nil (s : State) (h : s.hostQ = []) : hostStep s = .next s := by rw [hostStep, h]

theorem hostStep_cons (s : State) (a : HostAction) (q : List HostAction) (h : s.hostQ = a :: q) :
    hostStep s = hostAct a { s with hostQ := q } := by rw [hostStep, h]

/-- A write to `CTRL` is a command or nothing (44_host_commands.md R291, R294). -/
theorem hostAct_ctrl (s : State) (u : UnitId) (v : Word) :
    hostAct (.write u 0 v) s =
      if v = 1 then exec (.cmdStart u) s else if v = 2 then exec (.cmdClear u) s else .next s := by
  simp only [hostAct, if_true, decodeCmd]
  split
  · next c hc =>
    split at hc
    · next h1 => simp only [Except.ok.injEq] at hc; subst hc; rw [if_pos h1]
    · next h1 =>
      split at hc
      · next h2 => simp only [Except.ok.injEq] at hc; subst hc; rw [if_neg h1, if_pos h2]
      · simp at hc
  · next c hc =>
    split at hc
    · simp at hc
    · next h1 =>
      split at hc
      · simp at hc
      · next h2 => rw [if_neg h1, if_neg h2]

theorem hostAct_write (s : State) (u : UnitId) (i : BitVec 4) (v : Word) (h : i ≠ 0) :
    hostAct (.write u i v) s = .next (s.setShell u ((s.shell u).writeReg u i v)) := by
  simp only [hostAct, if_neg h]; rfl

theorem hostAct_read (s : State) (u : UnitId) (i : BitVec 4) : hostAct (.read u i) s = .next (s.readReg u i) := rfl

theorem hostAct_writeIn (s : State) (u : UnitId) (a : Nat) (v : Byte) :
    hostAct (.writeIn u a v) s = .next (s.setShell u ((s.shell u).writeIn s.cfg.maxIn a v)) := rfl

theorem hostAct_readIn (s : State) (u : UnitId) (a : Nat) : hostAct (.readIn u a) s = .next (s.readIn u a) := rfl

theorem hostAct_readOut (s : State) (u : UnitId) (a : Nat) : hostAct (.readOut u a) s = .next (s.readOut u a) := rfl

theorem hostAct_writeOut (s : State) (u : UnitId) (a : Nat) (v : Byte) : hostAct (.writeOut u a v) s = .next s := rfl

theorem hostAct_hardReset (s : State) : hostAct .hardReset s = .next s.hardReset := rfl

end Sys2Proof.Laws
end

