-- ==== Sys2Proof/Tests/Slice0.lean ====
section
/-! SUPPORT. Tests of the model: ill-formed terms are refused, words written out from the spec decode to their elements, single
steps against hand-worked results (95_test_vectors.md), and for every obligation with hypotheses a state that meets them. -/

set_option Elab.async false

namespace Sys2Proof.Tests

open Sys2Proof Sys2Proof.Machine

/-! ### Well-formedness refuses -/

theorem test_wf_refuses_wrong_raw_length :
    wf (.scan 2) (.ftNone [1]) = false ∧ wf (.scan 2) (.ftSub [1]) = false ∧ wf (.scan 2) (.ftUp [1]) = false ∧
      wf (.scan 2) (.ftAvg [1, 2, 3]) = false ∧ wf (.scan 2) (.ftPaeth []) = false := by decide

theorem test_wf_refuses_empty_run : wf (.rle false) (.rle8Run 0 7) = false ∧ wf (.rle true) (.rle4Run 0 1 2) = false := by
  decide

theorem test_wf_refuses_other_mode :
    wf (.rle true) (.rle8Run 1 7) = false ∧ wf (.rle false) (.rle4Run 1 1 2) = false ∧
      wf (.rle true) (.rle8Abs 3 [1, 2, 3]) = false ∧ wf (.rle false) (.rle4Abs 3 [1, 2]) = false := by decide

theorem test_wf_refuses_short_absolute_run :
    wf (.rle false) (.rle8Abs 2 [1, 2]) = false ∧ wf (.rle true) (.rle4Abs 2 [1]) = false := by decide

theorem test_wf_refuses_wrong_data_length :
    wf (.rle false) (.rle8Abs 3 [1, 2]) = false ∧ wf (.rle true) (.rle4Abs 5 [1, 2]) = false := by decide

theorem test_wf_refuses_register_ranges :
    wf (.lzw ⟨1, false, 3, 6, false⟩) .lzwClear = false ∧ wf (.lzw ⟨9, false, 10, 514, false⟩) .lzwClear = false ∧
      wf (.lzw ⟨2, false, 2, 6, false⟩) .lzwEoi = false ∧ wf (.lzw ⟨2, false, 13, 6, false⟩) .lzwEoi = false ∧
      wf (.lzw ⟨2, false, 3, 5, false⟩) .lzwClear = false ∧ wf (.lzw ⟨2, false, 3, 4097, false⟩) .lzwClear = false := by
  decide

theorem test_wf_refuses_literals :
    wf (.lzw ⟨2, false, 3, 6, true⟩) (.lzwLit 1) = false ∧ wf (.lzw ⟨2, false, 3, 6, false⟩) (.lzwLit 4) = false := by decide

theorem test_wf_refuses_references :
    wf (.lzw ⟨2, false, 3, 7, false⟩) (.lzwRef 6) = false ∧ wf (.lzw ⟨2, false, 3, 6, true⟩) (.lzwRef 6) = false ∧
      wf (.lzw ⟨2, false, 3, 6, true⟩) (.lzwRef 4) = false ∧ wf (.lzw ⟨2, false, 3, 10, true⟩) (.lzwRef 8) = false := by
  decide

theorem test_wf_refuses_kwk :
    wf (.lzw ⟨2, false, 3, 6, false⟩) .lzwKwk = false ∧ wf (.lzw ⟨2, false, 12, 4096, true⟩) .lzwKwk = false ∧
      wf (.lzw ⟨2, false, 3, 8, true⟩) .lzwKwk = false := by decide

theorem test_wf_refuses_illegal :
    wf (.lzw ⟨2, false, 3, 6, true⟩) (.lzwIllegal 6) = false ∧ wf (.lzw ⟨2, false, 3, 6, false⟩) (.lzwIllegal 5) = false ∧
      wf (.lzw ⟨2, false, 3, 6, true⟩) (.lzwIllegal 8) = false := by decide

theorem test_wf_refuses_other_table :
    wf (.g4 .mode) .g4Wt0 = false ∧ wf (.g4 .white) .g4Bt0 = false ∧ wf (.g4 .black) .g4P = false ∧
      wf (.g4 .mode) .rleEol = false := by decide

theorem test_wf_refuses_other_unit :
    wf (.cmd .pfe) (.cmdStart .rld) = false ∧ wf (.cmd .lzd) (.cmdClear .g4e) = false ∧
      wf (.scan 0) (.cmdStart .pfe) = false := by decide

theorem test_wf_refuses_parameters :
    let c := defaultConfig
    ({ c with maxIn := 0 } : Config).wf = false ∧ ({ c with maxIn := 2 ^ 24 + 1 } : Config).wf = false ∧
      ({ c with maxOut := 0 } : Config).wf = false ∧ ({ c with maxOut := 2 ^ 31 + 1 } : Config).wf = false ∧
      ({ c with maxW := 0 } : Config).wf = false ∧ ({ c with maxW := 2 ^ 31 } : Config).wf = false ∧
      ({ c with maxH := 0 } : Config).wf = false ∧ ({ c with maxH := 2 ^ 31 } : Config).wf = false := by decide +kernel

theorem test_wf_refuses_tables :
    let c := defaultConfig
    ({ c with whiteTab := c.whiteTab.tail } : Config).wf = false ∧
      ({ c with blackTab := ⟨14, 0⟩ :: c.blackTab.tail } : Config).wf = false ∧
      ({ c with whiteTab := ⟨4, 7⟩ :: c.whiteTab.tail } : Config).wf = false ∧
      ({ c with modeTab := { c.modeTab with pass := ⟨3, 3⟩ } } : Config).wf = false ∧
      ({ c with modeTab := { c.modeTab with v0 := ⟨0, 0⟩ } } : Config).wf = false ∧
      ({ c with modeTab := { c.modeTab with eol := ⟨11, 1⟩ } } : Config).wf = false := by decide +kernel

/-! ### Words decode to their elements -/

theorem test_decode_scanlines :
    decode (.scan 2) (.bytes [0b00000000, 7, 9]) = .ok (.ftNone [7, 9]) ∧
      decode (.scan 2) (.bytes [0b00000001, 7, 9]) = .ok (.ftSub [7, 9]) ∧
      decode (.scan 2) (.bytes [0b00000010, 7, 9]) = .ok (.ftUp [7, 9]) ∧
      decode (.scan 2) (.bytes [0b00000011, 7, 9]) = .ok (.ftAvg [7, 9]) ∧
      decode (.scan 2) (.bytes [0b00000100, 7, 9]) = .ok (.ftPaeth [7, 9]) := by decide

theorem test_decode_scanline_rejects :
    decode (.scan 2) (.bytes [0b00000101, 7, 9]) = .error .badFilter ∧
      decode (.scan 2) (.bytes [0b10000000, 7, 9]) = .error .badFilter ∧
      decode (.scan 2) (.bytes [4, 7]) = .error .truncated ∧ decode (.scan 2) (.bytes [5]) = .error .badFilter ∧
      decode (.scan 2) (.bytes []) = .error .truncated ∧ decode (.scan 2) (.bytes [4, 7, 9, 1]) = .error .otherForm := by
  decide

theorem test_decode_rle_commands :
    decode (.rle false) (.bytes [0b00000011, 0b00010000]) = .ok (.rle8Run 3 0x10) ∧
      decode (.rle true) (.bytes [0b00000101, 0b11100001]) = .ok (.rle4Run 5 0xE 0x1) ∧
      decode (.rle true) (.bytes [0b00000000, 0b00000000]) = .ok .rleEol ∧
      decode (.rle false) (.bytes [0b00000000, 0b00000001]) = .ok .rleEob ∧
      decode (.rle true) (.bytes [0b00000000, 0b00000010, 0b00000001, 0b11111111]) = .ok (.rleDelta 1 0xFF) ∧
      decode (.rle false) (.bytes [0b00000000, 0b00000011, 0x05, 0x06, 0x07, 0x00]) = .ok (.rle8Abs 3 [5, 6, 7]) ∧
      decode (.rle false) (.bytes [0b00000000, 0b00000100, 0x05, 0x06, 0x07, 0x08]) = .ok (.rle8Abs 4 [5, 6, 7, 8]) ∧
      decode (.rle true) (.bytes [0b00000000, 0b00000011, 0x12, 0x30]) = .ok (.rle4Abs 3 [0x12, 0x30]) ∧
      decode (.rle true) (.bytes [0b00000000, 0b00000101, 0x12, 0x34, 0x50, 0xAA]) =
        .ok (.rle4Abs 5 [0x12, 0x34, 0x50]) := by decide

theorem test_decode_rle_rejects :
    decode (.rle false) (.bytes [0]) = .error .truncated ∧ decode (.rle false) (.bytes [0, 2, 1]) = .error .truncated ∧
      decode (.rle false) (.bytes [0, 3, 1, 2, 3]) = .error .truncated ∧
      decode (.rle true) (.bytes [0, 5, 1, 2, 3]) = .error .truncated := by decide

/-- GIF codes of 3 bits, least significant bit first; one TIFF code of 9 bits, most significant first. -/
theorem test_decode_lzw_codes :
    decode (.lzw ⟨2, false, 3, 6, true⟩) (.bits [false, false, true]) = .ok .lzwClear ∧
      decode (.lzw ⟨2, false, 3, 6, true⟩) (.bits [true, false, true]) = .ok .lzwEoi ∧
      decode (.lzw ⟨2, false, 3, 6, false⟩) (.bits [true, false, false]) = .ok (.lzwLit 1) ∧
      decode (.lzw ⟨2, false, 3, 6, true⟩) (.bits [true, true, false]) = .ok (.lzwRef 3) ∧
      decode (.lzw ⟨2, false, 3, 7, true⟩) (.bits [false, true, true]) = .ok (.lzwRef 6) ∧
      decode (.lzw ⟨2, false, 3, 6, true⟩) (.bits [false, true, true]) = .ok .lzwKwk ∧
      decode (.lzw ⟨2, false, 3, 6, true⟩) (.bits [true, true, true]) = .ok (.lzwIllegal 7) ∧
      decode (.lzw ⟨2, false, 3, 6, false⟩) (.bits [false, true, true]) = .ok (.lzwIllegal 6) ∧
      decode (.lzw ⟨8, true, 9, 300, true⟩) (.bits [true, false, false, false, false, false, true, true, false]) =
        .ok (.lzwRef 0x106) := by decide

theorem test_decode_lzw_rejects :
    decode (.lzw ⟨2, false, 3, 6, true⟩) (.bits [true, true]) = .error .truncated := by decide

theorem test_decode_commands :
    decode (.cmd .pfe) (.word 0x00000001) = .ok (.cmdStart .pfe) ∧
      decode (.cmd .lzd) (.word 0x00000002) = .ok (.cmdClear .lzd) ∧
      decode (.cmd .g4e) (.word 0x00000003) = .error .reservedCommand ∧
      decode (.cmd .rld) (.word 0x00000000) = .error .reservedCommand ∧
      decode (.cmd .rld) (.word 0x80000001) = .error .reservedCommand := by decide

/-- The `n` bits of `v`, the most significant first. -/
def bitsOf (n v : Nat) : List Bool := (List.range n).map fun k => v.testBit (n - 1 - k)

/-- Every word `(length, bits, element)` decodes in the table to its element. -/
def wordsDecode (t : G4Table) (ws : List (Nat × Nat × Instr)) : Bool :=
  ws.all fun w => decide (decode (.g4 t) (.bits (bitsOf w.1 w.2.1)) = .ok w.2.2)

theorem test_decode_mode_words : wordsDecode .mode
    [(4, 0b0001, .g4P), (3, 0b001, .g4H), (7, 0b0000011, .g4Vr3), (6, 0b000011, .g4Vr2), (3, 0b011, .g4Vr1),
     (1, 0b1, .g4V0), (3, 0b010, .g4Vl1), (6, 0b000010, .g4Vl2), (7, 0b0000010, .g4Vl3),
     (12, 0b000000000001, .g4Eol)] = true := by
  decide +kernel

theorem test_decode_white_words_0 : wordsDecode .white
    [(8, 0b00110101, .g4Wt0), (6, 0b000111, .g4Wt1), (4, 0b0111, .g4Wt2), (4, 0b1000, .g4Wt3), (4, 0b1011, .g4Wt4),
     (4, 0b1100, .g4Wt5), (4, 0b1110, .g4Wt6), (4, 0b1111, .g4Wt7), (5, 0b10011, .g4Wt8), (5, 0b10100, .g4Wt9),
     (5, 0b00111, .g4Wt10), (5, 0b01000, .g4Wt11), (6, 0b001000, .g4Wt12), (6, 0b000011, .g4Wt13),
     (6, 0b110100, .g4Wt14), (6, 0b110101, .g4Wt15), (6, 0b101010, .g4Wt16), (6, 0b101011, .g4Wt17),
     (7, 0b0100111, .g4Wt18), (7, 0b0001100, .g4Wt19), (7, 0b0001000, .g4Wt20), (7, 0b0010111, .g4Wt21),
     (7, 0b0000011, .g4Wt22), (7, 0b0000100, .g4Wt23), (7, 0b0101000, .g4Wt24), (7, 0b0101011, .g4Wt25)] = true := by
  decide +kernel

theorem test_decode_white_words_26 : wordsDecode .white
    [(7, 0b0010011, .g4Wt26), (7, 0b0100100, .g4Wt27), (7, 0b0011000, .g4Wt28), (8, 0b00000010, .g4Wt29),
     (8, 0b00000011, .g4Wt30), (8, 0b00011010, .g4Wt31), (8, 0b00011011, .g4Wt32), (8, 0b00010010, .g4Wt33),
     (8, 0b00010011, .g4Wt34), (8, 0b00010100, .g4Wt35), (8, 0b00010101, .g4Wt36), (8, 0b00010110, .g4Wt37),
     (8, 0b00010111, .g4Wt38), (8, 0b00101000, .g4Wt39), (8, 0b00101001, .g4Wt40), (8, 0b00101010, .g4Wt41),
     (8, 0b00101011, .g4Wt42), (8, 0b00101100, .g4Wt43), (8, 0b00101101, .g4Wt44), (8, 0b00000100, .g4Wt45),
     (8, 0b00000101, .g4Wt46), (8, 0b00001010, .g4Wt47), (8, 0b00001011, .g4Wt48), (8, 0b01010010, .g4Wt49),
     (8, 0b01010011, .g4Wt50), (8, 0b01010100, .g4Wt51)] = true := by
  decide +kernel

theorem test_decode_white_words_52 : wordsDecode .white
    [(8, 0b01010101, .g4Wt52), (8, 0b00100100, .g4Wt53), (8, 0b00100101, .g4Wt54), (8, 0b01011000, .g4Wt55),
     (8, 0b01011001, .g4Wt56), (8, 0b01011010, .g4Wt57), (8, 0b01011011, .g4Wt58), (8, 0b01001010, .g4Wt59),
     (8, 0b01001011, .g4Wt60), (8, 0b00110010, .g4Wt61), (8, 0b00110011, .g4Wt62), (8, 0b00110100, .g4Wt63),
     (5, 0b11011, .g4Wm64), (5, 0b10010, .g4Wm128), (6, 0b010111, .g4Wm192), (7, 0b0110111, .g4Wm256),
     (8, 0b00110110, .g4Wm320), (8, 0b00110111, .g4Wm384), (8, 0b01100100, .g4Wm448), (8, 0b01100101, .g4Wm512),
     (8, 0b01101000, .g4Wm576), (8, 0b01100111, .g4Wm640), (9, 0b011001100, .g4Wm704), (9, 0b011001101, .g4Wm768),
     (9, 0b011010010, .g4Wm832), (9, 0b011010011, .g4Wm896)] = true := by
  decide +kernel

theorem test_decode_white_words_78 : wordsDecode .white
    [(9, 0b011010100, .g4Wm960), (9, 0b011010101, .g4Wm1024), (9, 0b011010110, .g4Wm1088),
     (9, 0b011010111, .g4Wm1152), (9, 0b011011000, .g4Wm1216), (9, 0b011011001, .g4Wm1280),
     (9, 0b011011010, .g4Wm1344), (9, 0b011011011, .g4Wm1408), (9, 0b010011000, .g4Wm1472),
     (9, 0b010011001, .g4Wm1536), (9, 0b010011010, .g4Wm1600), (6, 0b011000, .g4Wm1664),
     (9, 0b010011011, .g4Wm1728), (11, 0b00000001000, .g4Wm1792), (11, 0b00000001100, .g4Wm1856),
     (11, 0b00000001101, .g4Wm1920), (12, 0b000000010010, .g4Wm1984), (12, 0b000000010011, .g4Wm2048),
     (12, 0b000000010100, .g4Wm2112), (12, 0b000000010101, .g4Wm2176), (12, 0b000000010110, .g4Wm2240),
     (12, 0b000000010111, .g4Wm2304), (12, 0b000000011100, .g4Wm2368), (12, 0b000000011101, .g4Wm2432),
     (12, 0b000000011110, .g4Wm2496), (12, 0b000000011111, .g4Wm2560)] = true := by
  decide +kernel

theorem test_decode_black_words_0 : wordsDecode .black
    [(10, 0b0000110111, .g4Bt0), (3, 0b010, .g4Bt1), (2, 0b11, .g4Bt2), (2, 0b10, .g4Bt3), (3, 0b011, .g4Bt4),
     (4, 0b0011, .g4Bt5), (4, 0b0010, .g4Bt6), (5, 0b00011, .g4Bt7), (6, 0b000101, .g4Bt8), (6, 0b000100, .g4Bt9),
     (7, 0b0000100, .g4Bt10), (7, 0b0000101, .g4Bt11), (7, 0b0000111, .g4Bt12), (8, 0b00000100, .g4Bt13),
     (8, 0b00000111, .g4Bt14), (9, 0b000011000, .g4Bt15), (10, 0b0000010111, .g4Bt16), (10, 0b0000011000, .g4Bt17),
     (10, 0b0000001000, .g4Bt18), (11, 0b00001100111, .g4Bt19), (11, 0b00001101000, .g4Bt20),
     (11, 0b00001101100, .g4Bt21), (11, 0b00000110111, .g4Bt22), (11, 0b00000101000, .g4Bt23),
     (11, 0b00000010111, .g4Bt24), (11, 0b00000011000, .g4Bt25)] = true := by
  decide +kernel

theorem test_decode_black_words_26 : wordsDecode .black
    [(12, 0b000011001010, .g4Bt26), (12, 0b000011001011, .g4Bt27), (12, 0b000011001100, .g4Bt28),
     (12, 0b000011001101, .g4Bt29), (12, 0b000001101000, .g4Bt30), (12, 0b000001101001, .g4Bt31),
     (12, 0b000001101010, .g4Bt32), (12, 0b000001101011, .g4Bt33), (12, 0b000011010010, .g4Bt34),
     (12, 0b000011010011, .g4Bt35), (12, 0b000011010100, .g4Bt36), (12, 0b000011010101, .g4Bt37),
     (12, 0b000011010110, .g4Bt38), (12, 0b000011010111, .g4Bt39), (12, 0b000001101100, .g4Bt40),
     (12, 0b000001101101, .g4Bt41), (12, 0b000011011010, .g4Bt42), (12, 0b000011011011, .g4Bt43),
     (12, 0b000001010100, .g4Bt44), (12, 0b000001010101, .g4Bt45), (12, 0b000001010110, .g4Bt46),
     (12, 0b000001010111, .g4Bt47), (12, 0b000001100100, .g4Bt48), (12, 0b000001100101, .g4Bt49),
     (12, 0b000001010010, .g4Bt50), (12, 0b000001010011, .g4Bt51)] = true := by
  decide +kernel

theorem test_decode_black_words_52 : wordsDecode .black
    [(12, 0b000000100100, .g4Bt52), (12, 0b000000110111, .g4Bt53), (12, 0b000000111000, .g4Bt54),
     (12, 0b000000100111, .g4Bt55), (12, 0b000000101000, .g4Bt56), (12, 0b000001011000, .g4Bt57),
     (12, 0b000001011001, .g4Bt58), (12, 0b000000101011, .g4Bt59), (12, 0b000000101100, .g4Bt60),
     (12, 0b000001011010, .g4Bt61), (12, 0b000001100110, .g4Bt62), (12, 0b000001100111, .g4Bt63),
     (10, 0b0000001111, .g4Bm64), (12, 0b000011001000, .g4Bm128), (12, 0b000011001001, .g4Bm192),
     (12, 0b000001011011, .g4Bm256), (12, 0b000000110011, .g4Bm320), (12, 0b000000110100, .g4Bm384),
     (12, 0b000000110101, .g4Bm448), (13, 0b0000001101100, .g4Bm512), (13, 0b0000001101101, .g4Bm576),
     (13, 0b0000001001010, .g4Bm640), (13, 0b0000001001011, .g4Bm704), (13, 0b0000001001100, .g4Bm768),
     (13, 0b0000001001101, .g4Bm832), (13, 0b0000001110010, .g4Bm896)] = true := by
  decide +kernel

theorem test_decode_black_words_78 : wordsDecode .black
    [(13, 0b0000001110011, .g4Bm960), (13, 0b0000001110100, .g4Bm1024), (13, 0b0000001110101, .g4Bm1088),
     (13, 0b0000001110110, .g4Bm1152), (13, 0b0000001110111, .g4Bm1216), (13, 0b0000001010010, .g4Bm1280),
     (13, 0b0000001010011, .g4Bm1344), (13, 0b0000001010100, .g4Bm1408), (13, 0b0000001010101, .g4Bm1472),
     (13, 0b0000001011010, .g4Bm1536), (13, 0b0000001011011, .g4Bm1600), (13, 0b0000001100100, .g4Bm1664),
     (13, 0b0000001100101, .g4Bm1728), (11, 0b00000001000, .g4Bm1792), (11, 0b00000001100, .g4Bm1856),
     (11, 0b00000001101, .g4Bm1920), (12, 0b000000010010, .g4Bm1984), (12, 0b000000010011, .g4Bm2048),
     (12, 0b000000010100, .g4Bm2112), (12, 0b000000010101, .g4Bm2176), (12, 0b000000010110, .g4Bm2240),
     (12, 0b000000010111, .g4Bm2304), (12, 0b000000011100, .g4Bm2368), (12, 0b000000011101, .g4Bm2432),
     (12, 0b000000011110, .g4Bm2496), (12, 0b000000011111, .g4Bm2560)] = true := by
  decide +kernel

theorem test_decode_no_word : decode (.g4 .mode) (.bits [false, false, false, false, false, false, true]) = .error .noCodeWord ∧
    decode (.g4 .white) (.bits [true, true, false, true]) = .error .noCodeWord := by decide +kernel

theorem test_encode_words :
    encode (.g4 .white) .g4Wm1728 = some (.bits [false, true, false, false, true, true, false, true, true]) ∧
      encode (.rle false) (.rle8Abs 3 [5, 6, 7]) = some (.bytes [0, 3, 5, 6, 7, 0]) ∧
      encode (.lzw ⟨8, true, 9, 300, true⟩) (.lzwRef 0x106) =
        some (.bits [true, false, false, false, false, false, true, true, false]) := by decide +kernel

/-! ### Helpers: small states -/

/-- The machine with PFE started on an image of `w` by `h` pixels of format `fmt`, its input `bs`, PFE's turn next. -/
def pfeAt (w h fmt : Word) (bs : List Byte) : State :=
  let p := State.reset.pfe
  ({ State.reset with pfe := ({ p with sh := p.sh.load w h fmt bs } : Pfe).start defaultConfig } : State).grant (.unit .pfe)

/-- `pfeAt` with two rows, at row 1 below the line `prior`. -/
def pfeBelow (w fmt : Word) (prior bs : List Byte) : State :=
  let s := pfeAt w 2 fmt bs
  { s with pfe := { s.pfe with row := 1, prior := store s.pfe.prior 0 prior } }

/-- The machine with LZD started in the GIF variant with depth 2, its input `bs`, LZD's turn next. -/
def lzdAt (outMax : Word) (bs : List Byte) : State :=
  let l := State.reset.lzd
  ({ State.reset with lzd := ({ l with sh := l.sh.load 2 outMax 0 bs } : Lzd).start defaultConfig } : State).grant
    (.unit .lzd)

/-- `lzdAt` after the code 1: `OLD = 1`, nothing in the table. -/
def lzdOld (outMax : Word) (bs : List Byte) : State :=
  let s := lzdAt outMax bs
  { s with lzd := { s.lzd with old := 1, oldValid := true, first := 1 } }

/-- `lzdOld` with the entry 6, the string `01 01`, and `OLD = 6`. -/
def lzdEntry (outMax : Word) (bs : List Byte) : State :=
  let s := lzdOld outMax bs
  { s with lzd := { s.lzd with old := 6, avail := 7, prefixTab := [(6, 1)], suffixTab := [(6, 1)] } }

/-- The machine with LZD started in the TIFF variant, its input `bs`, LZD's turn next. -/
def lzdTiff (bs : List Byte) : State :=
  let l := State.reset.lzd
  ({ State.reset with lzd := ({ l with sh := l.sh.load 0x108 9 0 bs } : Lzd).start defaultConfig } : State).grant
    (.unit .lzd)

/-- The machine with G4E in its first row of `h`, eight pixels wide, the lines as given, G4E's turn next. -/
def g4At (h : Word) (cur ref : Byte) : State :=
  let g := State.reset.g4e
  let g1 := ({ g with sh := g.sh.load 8 h 0 [cur] } : G4e).start defaultConfig
  let g2 := ({ g1 with
    inrow := true
    cur := [(0, cur)]
    ref := [(0, ref)]
    sh := { g1.sh with inPos := 1 } } : G4e).rowStart
  ({ State.reset with g4e := g2 } : State).grant (.unit .g4e)

/-- The machine with G4E started on `h` rows of eight pixels, its input `bs`, G4E's turn next. -/
def g4Start (h : Word) (bs : List Byte) : State :=
  let g := State.reset.g4e
  ({ State.reset with g4e := ({ g with sh := g.sh.load 8 h 0 bs } : G4e).start defaultConfig } : State).grant (.unit .g4e)

/-- The machine with RLD started on a canvas of `w` by `h` pixels with `RLE_CFG = c`, its input `bs`, RLD's turn next. -/
def rldAt (w h c : Word) (bs : List Byte) : State :=
  let r := State.reset.rld
  ({ State.reset with rld := ({ r with sh := r.sh.load w h c bs } : Rld).start defaultConfig } : State).grant (.unit .rld)

/-- `rldAt` with the position and the cursor moved. -/
def rldFrom (w h c : Word) (bs : List Byte) (x y p : Word) : State :=
  let s := rldAt w h c bs
  { s with rld := { s.rld with x := x, y := y, sh := { s.rld.sh with inPos := p } } }

/-- The machine with one host access due. -/
def hostAt (s : State) (a : HostAction) : State := ({ s with hostQ := [a] } : State).grant .host

/-- The state after a step, seen through `f`. -/
def seen {α : Type} (r : Result) (f : State → α) : Option α :=
  match r with
  | .next t => some (f t)
  | .fault _ => none
  | .refused _ => none

/-- The first `n` bytes of PFE's line. -/
def lineOf (n : Nat) (t : State) : List Byte := (List.range n).map t.pfe.currAt

/-- The first `n` bytes of a unit's `OUT`. -/
def outOf (u : UnitId) (n : Nat) (t : State) : List Byte := (List.range n).map ((t.shell u).outByte u)

/-! ### PFE steps (95_test_vectors.md sections 1.1, 2.1) -/

/-- F1. -/
theorem test_ft_none : seen (step (pfeBelow 3 8 [9, 9, 9] [0, 0x00, 0x7F, 0xFF])) (lineOf 3) = some [0x00, 0x7F, 0xFF] := by
  decide +kernel

/-- F2. -/
theorem test_ft_sub_wraps :
    seen (step (pfeBelow 4 8 [9, 9, 9, 9] [1, 0x0A, 0x14, 0xFA, 0x0A])) (lineOf 4) = some [0x0A, 0x1E, 0x18, 0x22] := by
  decide +kernel

/-- F3: three bytes a pixel. -/
theorem test_ft_sub_reaches_back_bpp :
    seen (step (pfeBelow 2 0x208 [9, 9, 9, 9, 9, 9] [1, 1, 2, 3, 1, 1, 1])) (lineOf 6) = some [1, 2, 3, 2, 3, 4] := by
  decide +kernel

/-- F4. -/
theorem test_ft_up_wraps :
    seen (step (pfeBelow 3 8 [0xFF, 0xFE, 0x00] [2, 1, 2, 3])) (lineOf 3) = some [0, 0, 3] := by decide +kernel

/-- F5: the prior row of a pass's first row is 0. -/
theorem test_ft_up_first_row : seen (step (pfeAt 3 2 8 [2, 1, 2, 3])) (lineOf 3) = some [1, 2, 3] := by decide +kernel

/-- F7: the sum of two bytes FF has nine bits. -/
theorem test_ft_avg_exact_sum :
    seen (step (pfeBelow 2 8 [0xFF, 0xFF] [3, 0x80, 0x00])) (lineOf 2) = some [0xFF, 0xFF] := by decide +kernel

/-- F6. -/
theorem test_ft_avg_floor : seen (step (pfeBelow 2 8 [0xFF, 0xFF] [3, 5, 5])) (lineOf 2) = some [0x84, 0xC6] := by
  decide +kernel

/-- S2, row 4. -/
theorem test_ft_paeth :
    seen (step (pfeBelow 3 0x208 [0x73, 0xCD, 0x27, 0x8C, 0xE6, 0x40, 0x9D, 0xF7, 0x51]
      [4, 0x30, 0x30, 0x30, 0x11, 0x11, 0x11, 0x09, 0x09, 0x09])) (lineOf 9) =
      some [0xA3, 0xFD, 0x57, 0xB4, 0x0E, 0x68, 0xBD, 0x17, 0x71] := by decide +kernel

/-- The predictor's ties and its signed intermediate (section 2.1). -/
theorem test_paeth_predictor :
    paeth 0 0 255 = 0 ∧ paeth 255 255 255 = 255 ∧ paeth 20 10 30 = 10 ∧ paeth 50 60 55 = 55 ∧ paeth 8 11 10 = 8 ∧
      paeth 11 8 10 = 8 ∧ paeth 255 255 0 = 255 := by decide

/-- F20: the end of a run. -/
theorem test_pfe_run_ends :
    seen (step (pfeAt 2 1 0x610 [1, 1, 2, 3, 4, 5, 6, 7, 8, 1, 1, 1, 1, 1, 1, 1, 1]))
      (fun t => (outOf .pfe 16 t, t.pfe.sh.status, t.pfe.sh.inPos, t.pfe.sh.outLen)) =
      some ([1, 2, 3, 4, 5, 6, 7, 8, 2, 3, 4, 5, 6, 7, 8, 9], 2, 17, 16) := by decide +kernel

/-- F22, the first record: pass 1 to pass 6, the empty passes skipped. -/
theorem test_pfe_next_pass :
    seen (step (pfeAt 2 2 0x10008 [0, 0x11, 0, 0x22, 0, 0x33, 0x44]))
      (fun t => (outOf .pfe 4 t, t.pfe.pass, t.pfe.pw, t.pfe.ph, t.pfe.row)) = some ([0x11, 0, 0, 0], 5, 1, 1, 0) := by
  decide +kernel

/-- F30, at row 0: filter type 5. -/
theorem test_pfe_bad_filter :
    seen (step (pfeAt 4 2 8 [5, 0, 0, 0, 0])) (fun t => (t.pfe.sh.status, t.pfe.sh.errPos, t.pfe.sh.inPos)) =
      some (0x23, 0, 0) := by decide +kernel

/-- F32, at row 0: one byte short. -/
theorem test_pfe_short_record :
    seen (step (pfeAt 4 2 8 [4, 0, 0, 0])) (fun t => (t.pfe.sh.status, t.pfe.sh.errPos)) = some (0x33, 0) := by decide +kernel

/-! ### LZD steps (41_lzw.md; section 2.2) -/

/-- The code 4 of depth 2, bits 0 0 1. -/
theorem test_lzw_clear :
    seen (step (lzdEntry 9 [0x04])) (fun t => (t.lzd.avail, t.lzd.codeSize, t.lzd.oldValid, t.lzd.nbits, t.lzd.sh.status)) =
      some (6, 3, false, 5, 1) := by decide +kernel

theorem test_lzw_eoi :
    seen (step (lzdEntry 9 [0x05, 0xFF])) (fun t => (t.lzd.sh.status, t.lzd.sh.inPos)) = some (0x502, 1) := by decide +kernel

theorem test_lzw_lit :
    seen (step (lzdAt 9 [0x02])) (fun t => (outOf .lzd 1 t, t.lzd.old, t.lzd.first, t.lzd.oldValid, t.lzd.avail)) =
      some ([2], 2, 2, true, 6) := by decide +kernel

/-- The string `01 01` of 6, the entry 7 = (6, 1), the code size grown at 8. -/
theorem test_lzw_ref :
    seen (step (lzdEntry 9 [0x06]))
      (fun t => (outOf .lzd 2 t, t.lzd.sh.outLen, t.lzd.avail, t.lzd.codeSize, t.lzd.prefixAt 7, t.lzd.suffixAt 7)) =
      some ([1, 1], 2, 8, 4, 6, 1) := by decide +kernel

/-- Bytes past `OUT_MAX` are dropped. -/
theorem test_lzw_ref_clipped :
    seen (step (lzdEntry 1 [0x06])) (fun t => (outOf .lzd 1 t, t.lzd.sh.outLen, t.lzd.old)) = some ([1], 1, 6) := by
  decide +kernel

theorem test_lzw_kwk :
    seen (step (lzdOld 9 [0x06])) (fun t => (outOf .lzd 2 t, t.lzd.avail, t.lzd.codeSize, t.lzd.prefixAt 6, t.lzd.old)) =
      some ([1, 1], 7, 3, 1, 6) := by decide +kernel

theorem test_lzw_illegal :
    seen (step (lzdOld 9 [0x07])) (fun t => (t.lzd.sh.status, t.lzd.sh.errPos, t.lzd.oldValid)) = some (0x43, 1, true) := by
  decide +kernel

/-- A TIFF code of nine bits, most significant first: 001000001. -/
theorem test_lzw_tiff_fetch :
    seen (step (lzdTiff [0x20, 0xFF])) (fun t => (outOf .lzd 1 t, t.lzd.datum, t.lzd.nbits, t.lzd.sh.inPos)) =
      some ([0x41], 0x7F, 7, 2) := by decide +kernel

/-- The input runs out inside a code. -/
theorem test_lzw_exhausted :
    seen (step (lzdTiff [0x20])) (fun t => (t.lzd.sh.status, t.lzd.sh.inPos)) = some (0x602, 1) := by decide +kernel

/-! ### G4E steps (42_g4_encoder.md), rows of eight pixels -/

/-- The rest of the state of G4E the tests look at. -/
def packer (t : State) : Byte × BitVec 4 × Word × Word := (t.g4e.acc, t.g4e.free, t.g4e.sh.outLen, t.g4e.a0)

/-- `A1 = 8`, `B1 = 2`, `B2 = 5`: pass, the word 0001, `A0 = 5`, `B1 = 8`. -/
theorem test_g4_pass :
    seen (step (g4At 1 0x00 0x38)) (fun t => (packer t, t.g4e.a1, t.g4e.b1)) = some ((0x10, 4, 0, 5), 8, 8) := by decide +kernel

/-- Two white pixels, one black: 001 0111 010. -/
theorem test_g4_horizontal :
    seen (step (g4At 1 0x20 0x00)) (fun t => (packer t, outOf .g4e 1 t)) = some ((0x80, 6, 1, 3), [0x2E]) := by decide +kernel

theorem test_g4_vr3 : seen (step (g4At 1 0x08 0x7F)) packer = some (0b00000110, 1, 0, 4) := by decide +kernel
theorem test_g4_vr2 : seen (step (g4At 1 0x08 0x3F)) packer = some (0b00001100, 2, 0, 4) := by decide +kernel
theorem test_g4_vr1 : seen (step (g4At 1 0x08 0x1F)) packer = some (0b01100000, 5, 0, 4) := by decide +kernel
theorem test_g4_v0 : seen (step (g4At 1 0x08 0x0F)) packer = some (0b10000000, 7, 0, 4) := by decide +kernel
theorem test_g4_vl1 : seen (step (g4At 1 0x08 0x07)) packer = some (0b01000000, 5, 0, 4) := by decide +kernel
theorem test_g4_vl2 : seen (step (g4At 1 0x08 0x03)) packer = some (0b00001000, 2, 0, 4) := by decide +kernel
theorem test_g4_vl3 : seen (step (g4At 1 0x08 0x01)) packer = some (0b00000100, 1, 0, 4) := by decide +kernel

/-- An all-white row on a white reference: one bit, and the row is done. -/
theorem test_g4_row_end :
    seen (step (g4At 1 0x00 0x00)) (fun t => (packer t, t.g4e.row, t.g4e.inrow)) = some ((0x80, 7, 0, 8), 1, false) := by
  decide +kernel

/-- No rows: the end of block alone, `00 10 01`. -/
theorem test_g4_end_of_block :
    seen (step (g4Start 0 [])) (fun t => (outOf .g4e 3 t, t.g4e.sh.outLen, t.g4e.sh.status)) = some ([0x00, 0x10, 0x01], 3, 2) := by
  decide +kernel

theorem test_g4_row_open :
    seen (step (g4Start 1 [0x20])) (fun t => (t.g4e.inrow, t.g4e.a1, t.g4e.b1, t.g4e.sh.inPos)) = some (true, 2, 8, 1) := by
  decide +kernel

/-- A white run of 64 and a black run of 0: 11011 0000110111, thirteen bits of a packer. -/
theorem test_g4_run_words :
    seen (exec .g4Wm64 (g4Start 1 [0x20])) packer = some (0b11011000, 3, 0, 0) ∧
      seen (exec .g4Bt0 (g4Start 1 [0x20])) (fun t => (packer t, outOf .g4e 1 t)) =
        some ((0b11000000, 6, 1, 0), [0b00001101]) := by decide +kernel

/-! ### RLD steps (section 1.1, S4; section 2.4) -/

theorem test_rle8_run :
    seen (step (rldAt 4 2 0 [3, 0x10])) (fun t => (outOf .rld 8 t, t.rld.x, t.rld.sh.inPos)) =
      some ([0x10, 0x10, 0x10, 0, 0, 0, 0, 0], 3, 2) := by decide +kernel

theorem test_rle8_run_bounds :
    seen (step (rldFrom 4 2 0 [3, 0] 2 1 0)) (fun t => (t.rld.sh.status, t.rld.sh.errPos, t.rld.x, outOf .rld 8 t)) =
      some (0x53, 0, 2, [0, 0, 0, 0, 0, 0, 0, 0]) := by decide +kernel

theorem test_rle4_run :
    seen (step (rldAt 4 2 3 [3, 0xA5])) (fun t => (outOf .rld 8 t, t.rld.x)) = some ([0, 0, 0, 0, 10, 5, 10, 0], 3) := by
  decide +kernel

theorem test_rle_eol :
    seen (step (rldFrom 4 2 0 [0, 0] 3 0 0)) (fun t => (t.rld.x, t.rld.y, t.rld.sh.inPos)) = some (0, 1, 2) := by decide +kernel

theorem test_rle_eob :
    seen (step (rldAt 4 2 0 [0, 1, 9])) (fun t => (t.rld.sh.status, t.rld.sh.inPos)) = some (0x102, 2) := by decide +kernel

theorem test_rle_delta :
    seen (step (rldFrom 4 2 0 [0, 2, 1, 0xFF] 3 0 0)) (fun t => (t.rld.x, t.rld.y, t.rld.sh.inPos)) = some (4, 255, 4) := by
  decide +kernel

theorem test_rle8_abs :
    seen (step (rldFrom 4 2 0 [0, 3, 5, 6, 7, 0] 1 1 0)) (fun t => (outOf .rld 8 t, t.rld.x, t.rld.sh.inPos)) =
      some ([0, 0, 0, 0, 0, 5, 6, 7], 4, 6) := by decide +kernel

theorem test_rle4_abs :
    seen (step (rldAt 6 1 1 [0, 5, 0x12, 0x34, 0x5F, 0])) (fun t => (outOf .rld 6 t, t.rld.x, t.rld.sh.inPos)) =
      some ([1, 2, 3, 4, 5, 0], 5, 6) := by decide +kernel

/-! ### Commands (44_host_commands.md) -/

/-- F36: colour type 1. -/
theorem test_start_refuses_configuration :
    seen (exec (.cmdStart .pfe) { State.reset with pfe := { State.reset.pfe with sh := State.reset.pfe.sh.load 4 2 0x108 [] } })
      (fun t => (t.pfe.sh.status, t.pfe.sh.errPos)) = some (0x13, 0) := by decide +kernel

/-- A started G4E with no rows is BUSY. -/
theorem test_start_accepts :
    seen (exec (.cmdStart .g4e) { State.reset with g4e := { State.reset.g4e with sh := State.reset.g4e.sh.load 8 0 0 [] } })
      (fun t => (t.g4e.sh.status, t.g4e.free)) = some (1, 8) := by decide +kernel

theorem test_clear :
    (seen (exec (.cmdStart .lzd) State.reset) fun t => seen (exec (.cmdClear .lzd) t) fun v => v.lzd.sh.status) =
      some (some 0) := by decide +kernel

theorem test_clear_while_busy :
    seen (exec (.cmdClear .rld) (rldAt 4 2 0 [])) (fun t => t.rld.sh.status) = some 1 := by decide +kernel

/-! ### States that meet the obligations' hypotheses -/

theorem test_default_parameters : defaultConfig.wf = true := by decide +kernel

/-- Two passes still due: 2 by 2 pixels of 8-bit gray, interlaced, in pass 1. -/
def pfeInterlaced : State := pfeAt 2 2 0x10008 [0, 0x11, 0, 0x22, 0, 0x33, 0x44]

/-- The last scanline of the same image: pass 7, below no row. -/
def pfeLast : State :=
  let s := pfeInterlaced
  { s with pfe := { s.pfe with pass := 6, pw := 2, ph := 1, prb := 2, sh := { s.pfe.sh with inPos := 4 } } }

theorem test_running_pfe_first_row : (pfeAt 3 2 8 [0, 7, 8, 9]).pfe.Running defaultConfig :=
  ⟨by decide +kernel, ⟨⟨0, 0, 1, 1⟩, by decide +kernel⟩, by decide +kernel⟩

theorem test_running_pfe_last_row : (pfeBelow 3 8 [9, 9, 9] [0, 7, 8, 9]).pfe.Running defaultConfig :=
  ⟨by decide +kernel, ⟨⟨0, 0, 1, 1⟩, by decide +kernel⟩, by decide +kernel⟩

theorem test_running_pfe_interlaced : pfeInterlaced.pfe.Running defaultConfig :=
  ⟨by decide +kernel, ⟨⟨0, 0, 8, 8⟩, by decide +kernel⟩, by decide +kernel⟩

theorem test_running_pfe_last_pass : pfeLast.pfe.Running defaultConfig :=
  ⟨by decide +kernel, ⟨⟨0, 1, 1, 2⟩, by decide +kernel⟩, by decide +kernel⟩

/-- One of two codes of a string of the table. -/
theorem test_running_lzd_start : (lzdAt 9 [0x02]).lzd.Running defaultConfig where
  legal := by decide +kernel
  ranges := by decide +kernel
  width := by decide +kernel
  buffered := by decide +kernel
  accumulator := by decide +kernel
  loaded := by decide +kernel
  output := by decide +kernel
  old := by intro h; exact absurd h (by decide +kernel)
  chain := by
    have h : (lzdAt 9 [0x02]).lzd.cx.firstFree = 6 ∧ (lzdAt 9 [0x02]).lzd.cx.avail = 6 := by decide +kernel
    intro k h1 h2
    omega
  head := by intro h; exact absurd h (by decide +kernel)

theorem test_running_lzd_old : (lzdOld 9 [0x06]).lzd.Running defaultConfig where
  legal := by decide +kernel
  ranges := by decide +kernel
  width := by decide +kernel
  buffered := by decide +kernel
  accumulator := by decide +kernel
  loaded := by decide +kernel
  output := by decide +kernel
  old := fun _ => Or.inl (by decide +kernel)
  chain := by
    have h : (lzdOld 9 [0x06]).lzd.cx.firstFree = 6 ∧ (lzdOld 9 [0x06]).lzd.cx.avail = 6 := by decide +kernel
    intro k h1 h2
    omega
  head := by
    intro _ str h
    have e : (lzdOld 9 [0x06]).lzd.expand (lzdOld 9 [0x06]).lzd.old.toNat = some [1] := by decide +kernel
    rw [e] at h
    cases h
    decide +kernel

theorem test_running_lzd_entry : (lzdEntry 9 [0x06]).lzd.Running defaultConfig where
  legal := by decide +kernel
  ranges := by decide +kernel
  width := by decide +kernel
  buffered := by decide +kernel
  accumulator := by decide +kernel
  loaded := by decide +kernel
  output := by decide +kernel
  old := fun _ => Or.inr (by decide +kernel)
  chain := by
    have h : (lzdEntry 9 [0x06]).lzd.cx.firstFree = 6 ∧ (lzdEntry 9 [0x06]).lzd.cx.avail = 7 := by decide +kernel
    intro k h1 h2
    obtain rfl : k = 6 := by omega
    exact ⟨by decide +kernel, Or.inl (by decide +kernel)⟩
  head := by
    intro _ str h
    have e : (lzdEntry 9 [0x06]).lzd.expand (lzdEntry 9 [0x06]).lzd.old.toNat = some [1, 1] := by decide +kernel
    rw [e] at h
    cases h
    decide +kernel

/-- Two bits of the input are left, too few for a code. -/
def lzdShort : State :=
  let s := lzdAt 9 [0x02]
  { s with lzd := { s.lzd with nbits := 2, sh := { s.lzd.sh with inPos := 1 } } }

theorem test_running_lzd_short : lzdShort.lzd.Running defaultConfig where
  legal := by decide +kernel
  ranges := by decide +kernel
  width := by decide +kernel
  buffered := by decide +kernel
  accumulator := by decide +kernel
  loaded := by decide +kernel
  output := by decide +kernel
  old := by intro h; exact absurd h (by decide +kernel)
  chain := by
    have h : lzdShort.lzd.cx.firstFree = 6 ∧ lzdShort.lzd.cx.avail = 6 := by decide +kernel
    intro k h1 h2
    omega
  head := by intro h; exact absurd h (by decide +kernel)

/-- The running conditions of G4E but for the pending words are decidable. -/
theorem test_running_g4_pass : (g4At 1 0x00 0x38).g4e.Running defaultConfig := by
  constructor <;> first | decide +kernel | exact ⟨by decide +kernel, by decide +kernel⟩

theorem test_running_g4_horizontal : (g4At 1 0x20 0x00).g4e.Running defaultConfig := by
  constructor <;> first | decide +kernel | exact ⟨by decide +kernel, by decide +kernel⟩

theorem test_running_g4_vertical : (g4At 1 0x08 0x0F).g4e.Running defaultConfig := by
  constructor <;> first | decide +kernel | exact ⟨by decide +kernel, by decide +kernel⟩

theorem test_running_g4_start : (g4Start 1 [0x20]).g4e.Running defaultConfig := by
  constructor <;> first | decide +kernel | exact ⟨by decide +kernel, by decide +kernel⟩

theorem test_running_rld : (rldFrom 4 2 0 [3, 1, 0, 0] 1 0 2).rld.Running defaultConfig := by
  constructor <;> decide +kernel

/-- All four units in a run. -/
def allRunning : State :=
  { State.reset with
    pfe := (pfeAt 3 2 8 [0, 7, 8, 9]).pfe
    lzd := (lzdEntry 9 [0x06]).lzd
    g4e := (g4At 1 0x20 0x00).g4e
    rld := (rldFrom 4 2 0 [3, 1, 0, 0] 1 0 2).rld }

theorem test_good_pfe : allRunning.pfe.Good defaultConfig := by
  refine ⟨?_, by decide +kernel, by decide +kernel, ?_, ?_, by decide +kernel, fun _ => test_running_pfe_first_row⟩
  · constructor <;> (try unfold cellsBelow) <;> decide +kernel
  · unfold cellsBelow; decide +kernel
  · unfold cellsBelow; decide +kernel

theorem test_good_lzd : allRunning.lzd.Good defaultConfig := by
  refine ⟨?_, by decide +kernel, by decide +kernel, ?_, ?_, by decide +kernel, fun _ => test_running_lzd_entry⟩
  · constructor <;> (try unfold cellsBelow) <;> decide +kernel
  · unfold cellsBelow; decide +kernel
  · unfold cellsBelow; decide +kernel

theorem test_good_g4e : allRunning.g4e.Good defaultConfig := by
  refine ⟨?_, by decide +kernel, by decide +kernel, ?_, ?_, by decide +kernel, fun _ => test_running_g4_horizontal⟩
  · constructor <;> (try unfold cellsBelow) <;> decide +kernel
  · unfold cellsBelow; decide +kernel
  · unfold cellsBelow; decide +kernel

theorem test_good_rld : allRunning.rld.Good defaultConfig := by
  refine ⟨?_, by decide +kernel, fun _ => test_running_rld⟩
  constructor <;> (try unfold cellsBelow) <;> decide +kernel

/-- `StepKeepsGood`, `RegisterReads`, `InterleavingsAgree`, `RunsEnd`, `StartedRunsEnd`: a good state with every unit BUSY. -/
theorem test_good_all_running :
    allRunning.Good ∧ (∀ u, (allRunning.shell u).state = .busy) ∧ HostAction.hardReset ∉ allRunning.hostQ :=
  ⟨⟨test_default_parameters, test_good_pfe, test_good_lzd, test_good_g4e, test_good_rld⟩,
    by intro u; cases u <;> decide +kernel, by decide +kernel⟩

/-- What a look at an answer says of it. -/
theorem test_seen {α : Type} {r : Result} {f : State → α} {p : α} (h : seen r f = some p) : ∃ t, r = .next t ∧ f t = p := by
  cases r with
  | next t => exact ⟨t, rfl, by simpa [seen] using h⟩
  | fault f => simp [seen] at h
  | refused r => simp [seen] at h

theorem test_meets_DecodeInvertsEncode :
    wf (.scan 2) (.ftAvg [1, 2]) = true ∧ wf (.rle true) (.rle4Abs 255 (List.replicate 128 7)) = true ∧
      wf (.rle false) (.rle8Run 255 0) = true ∧ wf (.lzw ⟨2, false, 3, 7, true⟩) .lzwKwk = true ∧
      wf (.lzw ⟨8, true, 12, 4096, true⟩) (.lzwRef 4095) = true ∧ wf (.g4 .black) .g4Bm2560 = true ∧
      wf (.cmd .rld) (.cmdClear .rld) = true := by decide +kernel

theorem test_meets_EncodeInvertsDecode :
    (∀ x, Cx.lzw ⟨2, false, 3, 6, false⟩ = .lzw x → x.ok = true) ∧
      decode (.lzw ⟨2, false, 3, 6, false⟩) (.bits [false, true, true]) = .ok (.lzwIllegal 6) := by
  constructor
  · intro x h
    cases h
    decide
  · decide

theorem test_meets_EveryBytePairIsACommand :
    256 ≤ (List.replicate 256 (0 : Byte)).length ∧ (0xFF : Byte) ≠ 0 ∧ 3 ≤ (3 : Byte).toNat ∧ 3 ≤ (0xFF : Byte).toNat := by
  decide +kernel

theorem test_meets_CodeClasses :
    let x : LzwCx := ⟨2, false, 3, 6, false⟩
    let y : LzwCx := ⟨2, false, 3, 7, true⟩
    x.ok = true ∧ y.ok = true ∧ (4 : BitVec 12).toNat = 2 ^ x.n ∧ (5 : BitVec 12).toNat = 2 ^ x.n + 1 ∧
      (3 : BitVec 12).toNat < 2 ^ x.n ∧ 2 ^ x.n + 1 < (6 : BitVec 12).toNat ∧
      (2 ^ y.n + 2 ≤ (6 : BitVec 12).toNat ∧ (6 : BitVec 12).toNat < y.avail) ∧ (7 : BitVec 12).toNat = y.avail ∧
      y.avail < (8 : BitVec 12).toNat := by decide

theorem test_meets_StepRunsDecodedElement_pfe :
    let s := pfeAt 3 2 8 [0, 7, 8, 9]
    let s1 := s.takeTurn.2
    s.takeTurn = (.unit .pfe, s1) ∧ s1.pfe.sh.state = .busy ∧
      decodeScan s1.pfe.prb.toNat (s1.pfe.sh.window .pfe (1 + s1.pfe.prb.toNat)) = .ok (.ftNone [7, 8, 9], []) :=
  ⟨rfl, by decide +kernel, by decide +kernel⟩

theorem test_meets_StepRunsDecodedElement_rld :
    let s := rldAt 4 2 0 [3, 1, 0, 0]
    let s1 := s.takeTurn.2
    s.takeTurn = (.unit .rld, s1) ∧ s1.rld.sh.state = .busy ∧
      decodeRle s1.rld.mode4 (s1.rld.sh.window .rld 258) = .ok (.rle8Run 3 1, [0, 0]) :=
  ⟨rfl, by decide +kernel, by decide +kernel⟩

theorem test_meets_StepRunsDecodedElement_lzd :
    let s := lzdOld 9 [0x06]
    let s1 := s.takeTurn.2
    s.takeTurn = (.unit .lzd, s1) ∧ s1.lzd.sh.state = .busy ∧ s1.lzd.sh.outLen.toNat < s1.lzd.outMax ∧
      s1.lzd.fill 2 = ((s1.lzd.fill 2).1, true) :=
  ⟨rfl, by decide +kernel, by decide +kernel, by rw [Prod.ext_iff]; exact ⟨rfl, by decide +kernel⟩⟩

theorem test_meets_StepRunsDecodedElement_modes :
    let s := g4At 1 0x08 0x0F
    let s1 := s.takeTurn.2
    s.takeTurn = (.unit .g4e, s1) ∧ s1.g4e.sh.state = .busy ∧ s1.g4e.pend = [] ∧ s1.g4e.inrow = true ∧ s1.g4e.mode ≠ .g4H :=
  ⟨rfl, by decide +kernel⟩

theorem test_meets_StepRunsDecodedElement_horizontal :
    let s := g4At 1 0x20 0x00
    let s1 := s.takeTurn.2
    s.takeTurn = (.unit .g4e, s1) ∧ s1.g4e.sh.state = .busy ∧ s1.g4e.pend = [] ∧ s1.g4e.inrow = true ∧ s1.g4e.mode = .g4H ∧
      ∃ t, exec .g4H s1 = .next t ∧ t.g4e.sh.state = .busy :=
  ⟨rfl, by decide +kernel, by decide +kernel, by decide +kernel, by decide +kernel,
    test_seen (f := fun t => t.g4e.sh.state) (by decide +kernel)⟩

theorem test_meets_StepRunsDecodedElement_end :
    let s := g4Start 0 []
    let s1 := s.takeTurn.2
    s.takeTurn = (.unit .g4e, s1) ∧ s1.g4e.sh.state = .busy ∧ s1.g4e.pend = [] ∧ s1.g4e.inrow = false ∧
      s1.g4e.row.toNat = s1.g4e.height :=
  ⟨rfl, by decide +kernel⟩

theorem test_meets_StepRunsDecodedElement_run_word :
    let s := State.reset.placeRun ⟨.white, 64⟩
    let s1 := s.takeTurn.2
    s.takeTurn = (.unit .g4e, s1) ∧ s1.g4e.sh.state = .busy ∧ s1.g4e.pend = [⟨.white, 64⟩] ∧
      RunWord.instr ⟨.white, 64⟩ = some .g4Wm64 ∧
      ∃ t, exec .g4Wm64 { s1 with g4e := { s1.g4e with pend := [] } } = .next t ∧ t.g4e.free = 3 :=
  ⟨rfl, by decide +kernel, by decide +kernel, by decide +kernel, test_seen (f := fun t => t.g4e.free) (by decide +kernel)⟩

theorem test_meets_StepRunsDecodedElement_host :
    let s := hostAt State.reset (.write .lzd 0 1)
    let s1 := s.takeTurn.2
    s.takeTurn = (.host, s1) ∧ s1.hostQ = [.write .lzd 0 1] ∧ decodeCmd .lzd 1 = .ok (.cmdStart .lzd) :=
  ⟨rfl, by decide +kernel⟩

/-- `FtNone`, `FtSub`, `FtUp`, `FtAvg`, `FtPaeth`, `PlacementNonInterlaced`, and `ScanlineMovesOn` inside a pass. -/
theorem test_meets_scanlines :
    let s := pfeAt 3 2 8 [0, 7, 8, 9]
    s.pfe.Running s.cfg ∧ s.cfg.wf = true ∧ ([7, 8, 9] : List Byte).length = s.pfe.prb.toNat ∧ s.pfe.interlaced = false ∧
      s.pfe.row.toNat + 1 < s.pfe.ph.toNat :=
  ⟨test_running_pfe_first_row, test_default_parameters, by decide +kernel⟩

theorem test_meets_ScanlineMovesOn_next_pass :
    let s := pfeInterlaced
    s.pfe.Running s.cfg ∧ s.cfg.wf = true ∧ ([0x11] : List Byte).length = s.pfe.prb.toNat ∧
      s.pfe.row.toNat + 1 = s.pfe.ph.toNat ∧
      (s.pfe.pass.toNat < 5 ∧ s.pfe.passes[5]? = some ⟨1, 0, 2, 2⟩ ∧ s.pfe.passFull ⟨1, 0, 2, 2⟩ = true) ∧
      ∀ m g, s.pfe.pass.toNat < m ∧ s.pfe.passes[m]? = some g ∧ s.pfe.passFull g = true → 5 ≤ m := by
  refine ⟨test_running_pfe_interlaced, test_default_parameters, by decide +kernel, by decide +kernel, by decide +kernel, ?_⟩
  rintro m g ⟨h1, h2, h3⟩
  by_contra h4
  have h : ∀ k < 5, pfeInterlaced.pfe.pass.toNat < k →
      (pfeInterlaced.pfe.passes[k]?).map pfeInterlaced.pfe.passFull = some false := by decide +kernel
  have h5 := h m (by omega) h1
  rw [h2] at h5
  simp [h3] at h5

theorem test_meets_ScanlineMovesOn_end :
    let s := pfeLast
    s.pfe.Running s.cfg ∧ s.cfg.wf = true ∧ ([0x33, 0x44] : List Byte).length = s.pfe.prb.toNat ∧
      s.pfe.row.toNat + 1 = s.pfe.ph.toNat ∧
      ∀ m g, ¬(s.pfe.pass.toNat < m ∧ s.pfe.passes[m]? = some g ∧ s.pfe.passFull g = true) := by
  refine ⟨test_running_pfe_last_pass, test_default_parameters, by decide +kernel, by decide +kernel, ?_⟩
  rintro m g ⟨h1, h2, -⟩
  have h3 : pfeLast.pfe.pass.toNat = 6 ∧ pfeLast.pfe.passes.length = 7 := by decide +kernel
  have h4 := (List.getElem?_eq_some_iff.1 h2).1
  omega

theorem test_meets_PlacementInterlaced :
    let s := pfeLast
    s.pfe.Running s.cfg ∧ s.cfg.wf = true ∧ ([0x33, 0x44] : List Byte).length = s.pfe.prb.toNat ∧ s.pfe.interlaced = true ∧
      s.pfe.passes[s.pfe.pass.toNat]? = some ⟨0, 1, 1, 2⟩ :=
  ⟨test_running_pfe_last_pass, test_default_parameters, by decide +kernel⟩

theorem test_meets_PassesPartitionTheImage :
    pfeLast.pfe.interlaced = true ∧ (pfeAt 3 2 8 []).pfe.interlaced = false ∧ 1 < pfeLast.pfe.width ∧
      1 < pfeLast.pfe.height ∧ (⟨0, 1, 1, 2⟩ : PassGeom) ∈ pfeLast.pfe.passes := by decide +kernel

theorem test_meets_ScanlineFaults :
    let s := pfeAt 4 2 8 []
    let t := pfeAt 4 2 8 [5]
    let v := pfeAt 4 2 8 [4, 0, 0, 0]
    (s.pfe.sh.state = .busy ∧ s.pfe.sh.inLen.toNat ≤ s.pfe.sh.inPos.toNat) ∧
      (t.pfe.sh.state = .busy ∧ t.pfe.sh.inPos.toNat < t.pfe.sh.inLen.toNat ∧
        4 < (t.pfe.sh.inByte .pfe t.pfe.sh.inPos.toNat).toNat) ∧
      (v.pfe.sh.state = .busy ∧ v.pfe.sh.inPos.toNat < v.pfe.sh.inLen.toNat ∧
        (v.pfe.sh.inByte .pfe v.pfe.sh.inPos.toNat).toNat ≤ 4 ∧
        v.pfe.sh.inLen.toNat < v.pfe.sh.inPos.toNat + 1 + v.pfe.prb.toNat) := by decide +kernel

theorem test_meets_FetchTakesTheNextBits :
    let s := lzdOld 9 [0x06]
    s.lzd.Running s.cfg ∧ s.cfg.wf = true ∧ s.lzd.sh.inPos.toNat ≤ s.lzd.sh.inLen.toNat ∧
      s.lzd.bitPos + s.lzd.codeSize.toNat ≤ 8 * s.lzd.sh.inLen.toNat :=
  ⟨test_running_lzd_old, test_default_parameters, by decide +kernel⟩

/-- The second clause of `FetchTakesTheNextBits` and of `LzdEnds`. -/
theorem test_meets_exhausted_input :
    let s := lzdShort
    s.lzd.Running s.cfg ∧ s.cfg.wf = true ∧ s.lzd.sh.inPos.toNat ≤ s.lzd.sh.inLen.toNat ∧
      8 * s.lzd.sh.inLen.toNat < s.lzd.bitPos + s.lzd.codeSize.toNat ∧ s.lzd.sh.state = .busy ∧
      s.lzd.sh.outLen.toNat < s.lzd.outMax :=
  ⟨test_running_lzd_short, test_default_parameters, by decide +kernel⟩

theorem test_meets_LzdEnds :
    (lzdAt 0 [0x02]).lzd.sh.state = .busy ∧ (lzdAt 0 [0x02]).lzd.outMax ≤ (lzdAt 0 [0x02]).lzd.sh.outLen.toNat := by
  decide +kernel

theorem test_meets_LzwControlCodes : (lzdAt 9 [0x04]).lzd.depth ≤ 8 := by decide +kernel

theorem test_meets_LzwLit :
    let s := lzdAt 9 [0x02]
    s.lzd.Running s.cfg ∧ s.cfg.wf = true ∧ (3 : BitVec 12).toNat < 2 ^ s.lzd.depth :=
  ⟨test_running_lzd_start, test_default_parameters, by decide +kernel⟩

theorem test_meets_LzwRef :
    let s := lzdEntry 9 [0x06]
    s.lzd.Running s.cfg ∧ s.cfg.wf = true ∧ s.lzd.oldValid = true ∧ (3 : BitVec 12).toNat < 2 ^ s.lzd.depth ∧
      2 ^ s.lzd.depth + 2 ≤ (6 : BitVec 12).toNat ∧ (6 : BitVec 12).toNat < s.lzd.avail.toNat :=
  ⟨test_running_lzd_entry, test_default_parameters, by decide +kernel⟩

theorem test_meets_LzwKwk :
    let s := lzdOld 9 [0x06]
    s.lzd.Running s.cfg ∧ s.cfg.wf = true ∧ s.lzd.oldValid = true ∧ s.lzd.avail.toNat < 4096 :=
  ⟨test_running_lzd_old, test_default_parameters, by decide +kernel⟩

theorem test_meets_StringsFollowTheChain :
    let l := (lzdEntry 9 [0x06]).lzd
    l.Running defaultConfig ∧ 3 < 2 ^ l.depth ∧ 2 ^ l.depth + 2 ≤ 6 ∧ 6 < l.avail.toNat :=
  ⟨test_running_lzd_entry, by decide +kernel⟩

/-- G4E in a row with `OUT` full. -/
def g4Full (cur ref : Byte) : State :=
  let s := g4At 1 cur ref
  { s with g4e := { s.g4e with sh := { s.g4e.sh with outLen := 0x1000000 } } }

theorem test_running_g4_full : (g4Full 0x20 0x00).g4e.Running defaultConfig := by
  constructor <;> first | decide +kernel | exact ⟨by decide +kernel, by decide +kernel⟩

/-- G4E in a row with `OUT` full and one bit free in `ACC`: no word fits. -/
def g4Tight (cur ref : Byte) : State :=
  let s := g4Full cur ref
  { s with g4e := { s.g4e with free := 1 } }

theorem test_running_g4_tight : (g4Tight 0x20 0x00).g4e.Running defaultConfig := by
  constructor <;> first | decide +kernel | exact ⟨by decide +kernel, by decide +kernel⟩

/-- `PutbitsAppends`, `RunWordsSendTheirCode`: a word that fits, a word that does not. -/
theorem test_meets_packing :
    let g := (g4At 1 0x20 0x00).g4e
    let f := (g4Full 0x20 0x00).g4e
    let c : CodeWord := ⟨13, 0x6C⟩
    g.PackerOk ∧ f.PackerOk ∧ c.ok = true ∧ defaultConfig.wf = true ∧ g.sh.outLen.toNat ≤ defaultConfig.maxOut ∧
      f.sh.outLen.toNat ≤ defaultConfig.maxOut ∧ g.Room defaultConfig c.len ∧ ¬f.Room defaultConfig c.len ∧
      RunWord.instr ⟨.black, 71⟩ = some .g4Bm512 ∧ runCode defaultConfig ⟨.black, 71⟩ = some c := by
  refine ⟨⟨by decide +kernel, by decide +kernel⟩, ⟨by decide +kernel, by decide +kernel⟩, by decide, test_default_parameters,
    by decide +kernel, by decide +kernel, ?_, ?_, by decide +kernel, by decide +kernel⟩
  · unfold G4e.Room; decide +kernel
  · unfold G4e.Room; decide +kernel

theorem test_meets_ModeChoice :
    let p := (g4At 1 0x00 0x38).g4e
    let v := (g4At 1 0x08 0x01).g4e
    let h := (g4At 1 0x20 0x00).g4e
    finddiff2 p.refPixel p.b1.toNat p.width (p.refPixel p.b1.toNat) < p.a1.toNat ∧
      (v.a1.toNat ≤ finddiff2 v.refPixel v.b1.toNat v.width (v.refPixel v.b1.toNat) ∧
        |(v.b1.toNat : Int) - v.a1.toNat| = 3) ∧
      (h.a1.toNat ≤ finddiff2 h.refPixel h.b1.toNat h.width (h.refPixel h.b1.toNat) ∧
        3 < |(h.b1.toNat : Int) - h.a1.toNat|) := by decide +kernel

theorem test_meets_PassMode :
    let s := g4At 1 0x00 0x38
    s.g4e.Running s.cfg ∧ s.cfg.wf = true ∧ s.g4e.inrow = true ∧ s.g4e.Room s.cfg s.cfg.modeTab.pass.len := by
  refine ⟨test_running_g4_pass, test_default_parameters, by decide +kernel, ?_⟩
  unfold G4e.Room
  decide +kernel

theorem test_meets_VerticalModes :
    let s := g4At 1 0x08 0x0F
    s.g4e.Running s.cfg ∧ s.cfg.wf = true ∧ s.g4e.inrow = true ∧
      (Instr.g4Vl3, s.cfg.modeTab.vl3) ∈ [(Instr.g4V0, s.cfg.modeTab.v0), (.g4Vl3, s.cfg.modeTab.vl3)] ∧
      s.g4e.Room s.cfg s.cfg.modeTab.vl3.len := by
  refine ⟨test_running_g4_vertical, test_default_parameters, by decide +kernel, by decide +kernel, ?_⟩
  unfold G4e.Room
  decide +kernel

/-- `PassMode`, `VerticalModes`, `HorizontalMode` where the word does not fit. -/
theorem test_meets_modes_overflow :
    let s := g4Tight 0x20 0x00
    s.g4e.Running s.cfg ∧ s.cfg.wf = true ∧ s.g4e.inrow = true ∧ ¬s.g4e.Room s.cfg s.cfg.modeTab.pass.len ∧
      ¬s.g4e.Room s.cfg s.cfg.modeTab.v0.len ∧ ¬s.g4e.Room s.cfg s.cfg.modeTab.horiz.len := by
  refine ⟨test_running_g4_tight, test_default_parameters, by decide +kernel, ?_⟩
  unfold G4e.Room
  decide +kernel

/-- `HorizontalMode`, and `HorizontalStep` where the words fit. -/
theorem test_meets_HorizontalStep_room :
    let s := g4At 1 0x20 0x00
    s.g4e.Running s.cfg ∧ s.cfg.wf = true ∧ s.g4e.sh.state = .busy ∧ s.g4e.inrow = true ∧ s.g4e.mode = .g4H ∧
      s.g4e.RunsAre [⟨.white, 2⟩, ⟨.black, 1⟩] ∧ s.g4e.Room s.cfg s.cfg.modeTab.horiz.len ∧
      s.g4e.Room s.cfg (s.cfg.modeTab.horiz.bits ++ runBits s.cfg [⟨.white, 2⟩, ⟨.black, 1⟩]).length := by
  refine ⟨test_running_g4_horizontal, test_default_parameters, by decide +kernel, by decide +kernel, by decide +kernel,
    ?_, ?_, ?_⟩
  · unfold G4e.RunsAre; decide +kernel
  · unfold G4e.Room; decide +kernel
  · unfold G4e.Room; decide +kernel

theorem test_meets_HorizontalStep_overflow :
    let s := g4Full 0x20 0x00
    s.g4e.Running s.cfg ∧ s.cfg.wf = true ∧ s.g4e.sh.state = .busy ∧ s.g4e.inrow = true ∧ s.g4e.mode = .g4H ∧
      s.g4e.RunsAre [⟨.white, 2⟩, ⟨.black, 1⟩] ∧
      ¬s.g4e.Room s.cfg (s.cfg.modeTab.horiz.bits ++ runBits s.cfg [⟨.white, 2⟩, ⟨.black, 1⟩]).length := by
  refine ⟨test_running_g4_full, test_default_parameters, by decide +kernel, by decide +kernel, by decide +kernel, ?_, ?_⟩
  · unfold G4e.RunsAre; decide +kernel
  · unfold G4e.Room; decide +kernel

/-- `RunWordsOfASpan` at the bounds of its clauses. -/
theorem test_meets_RunWordsOfASpan : 2624 ≤ 2624 ∧ (64 ≤ 2623 ∧ 2623 < 2624) ∧ (64 ≤ 64 ∧ 64 < 2624) ∧ 63 < 64 := by decide

theorem test_meets_RowOpen :
    let s := g4Start 1 [0x20]
    s.g4e.Running s.cfg ∧ s.cfg.wf = true ∧ s.g4e.sh.state = .busy ∧ s.g4e.inrow = false ∧ s.g4e.row.toNat < s.g4e.height ∧
      s.g4e.sh.inPos.toNat + s.g4e.rowBytes ≤ s.g4e.sh.inLen.toNat :=
  ⟨test_running_g4_start, test_default_parameters, by decide +kernel⟩

theorem test_meets_RowOpen_truncated :
    let s := g4Start 1 []
    s.g4e.Running s.cfg ∧ s.cfg.wf = true ∧ s.g4e.sh.state = .busy ∧ s.g4e.inrow = false ∧ s.g4e.row.toNat < s.g4e.height ∧
      s.g4e.sh.inLen.toNat < s.g4e.sh.inPos.toNat + s.g4e.rowBytes := by
  refine ⟨?_, test_default_parameters, by decide +kernel⟩
  constructor <;> first | decide +kernel | exact ⟨by decide +kernel, by decide +kernel⟩

/-- `EndOfBlock`: the words fit, and with two bytes of room they do not. -/
theorem test_meets_EndOfBlock :
    let g := (g4Start 0 []).g4e
    let f : G4e := { g with sh := { g.sh with outLen := 0xFFFFFE } }
    let bytes (h : G4e) : Nat := (8 - h.free.toNat + 24 + 7) / 8
    g.PackerOk ∧ f.PackerOk ∧ defaultConfig.wf = true ∧ g.sh.outLen.toNat ≤ defaultConfig.maxOut ∧
      f.sh.outLen.toNat ≤ defaultConfig.maxOut ∧ g.sh.outLen.toNat + bytes g ≤ defaultConfig.maxOut ∧
      defaultConfig.maxOut < f.sh.outLen.toNat + bytes f :=
  ⟨⟨by decide +kernel, by decide +kernel⟩, ⟨by decide +kernel, by decide +kernel⟩, test_default_parameters, by decide +kernel⟩

/-- `SpanFinders` at the bounds of its clauses: an empty span, a span of one, a whole line. -/
theorem test_meets_SpanFinders : 5 ≤ 5 ∧ 4 < 5 ∧ (0 ≤ 8 ∧ 8 ≤ 8) ∧ finddiff (fun _ => true) 4 5 true = 5 := by decide

/-- A row of five pixels, the pad bits of its lines as given. -/
def g4Pad (cur ref : Byte) : State :=
  let s := g4At 1 0x20 0x00
  { s with g4e := ({ s.g4e with cur := [(0, cur)], ref := [(0, ref)], sh := { s.g4e.sh with cfg0 := 5 } } : G4e).rowStart }

theorem test_meets_PadBitsHaveNoEffect :
    let s := g4Pad 0x20 0x00
    let s' := { s with g4e := { s.g4e with cur := [(0, 0x27)], ref := [(0, 0x05)] } }
    s.g4e.Running s.cfg ∧ s.cfg.wf = true ∧ s.g4e.sh.state = .busy ∧ s.g4e.inrow = true ∧ s'.g4e.curPixel = s.g4e.curPixel ∧
      s'.g4e.refPixel = s.g4e.refPixel := by
  refine ⟨?_, test_default_parameters, by decide +kernel, by decide +kernel, ?_, ?_⟩
  · constructor <;> first | decide +kernel | exact ⟨by decide +kernel, by decide +kernel⟩
  · funext x
    rcases Nat.lt_or_ge x 5 with h | h
    · revert x; decide +kernel
    · have h' : ¬x < 5 := by omega
      show pixel _ 5 x = pixel _ 5 x
      simp [pixel, h']
  · funext x
    rcases Nat.lt_or_ge x 5 with h | h
    · revert x; decide +kernel
    · have h' : ¬x < 5 := by omega
      show pixel _ 5 x = pixel _ 5 x
      simp [pixel, h']

/-- `EncodedRuns`, `AbsoluteRuns`: pixels that fit to the last column, one too many, a row past the canvas. -/
theorem test_meets_pixel_runs :
    let s := rldFrom 4 2 0 [3, 1, 0, 0] 1 0 2
    s.rld.Running s.cfg ∧ s.cfg.wf = true ∧ s.rld.y.toNat < s.rld.height ∧ s.rld.x.toNat + (3 : Byte).toNat ≤ s.rld.width ∧
      s.rld.width < s.rld.x.toNat + (4 : Byte).toNat ∧ ([5, 6, 7] : List Byte).length = (3 : Byte).toNat ∧
      ([0x56, 0x70] : List Byte).length = ((3 : Byte).toNat + 1) / 2 :=
  ⟨test_running_rld, test_default_parameters, by decide +kernel⟩

theorem test_meets_pixel_runs_below :
    let s := rldFrom 4 2 0 [0, 0, 0, 0] 0 2 4
    s.rld.Running s.cfg ∧ s.cfg.wf = true ∧ s.rld.height ≤ s.rld.y.toNat :=
  ⟨by constructor <;> decide +kernel, test_default_parameters, by decide +kernel⟩

theorem test_meets_RldTruncations :
    let s := rldAt 4 2 0 [0]
    let t := rldAt 4 2 0 [0, 2, 1]
    let v := rldAt 4 2 1 [0, 5, 1, 2, 3]
    (s.rld.sh.state = .busy ∧ s.rld.sh.inLen.toNat ≤ s.rld.sh.inPos.toNat + 1) ∧
      (t.rld.sh.state = .busy ∧ t.rld.sh.inPos.toNat + 1 < t.rld.sh.inLen.toNat ∧ t.rld.sh.inByte .rld 0 = 0 ∧
        t.rld.sh.inByte .rld 1 = 2 ∧ t.rld.sh.inLen.toNat ≤ t.rld.sh.inPos.toNat + 3) ∧
      (v.rld.sh.state = .busy ∧ v.rld.sh.inPos.toNat + 1 < v.rld.sh.inLen.toNat ∧ v.rld.sh.inByte .rld 0 = 0 ∧
        3 ≤ (v.rld.sh.inByte .rld 1).toNat ∧ v.rld.mode4 = true ∧
        v.rld.sh.inLen.toNat < v.rld.sh.inPos.toNat + 2 + (5 + 1) / 2 + (5 + 1) / 2 % 2) := by decide +kernel

theorem test_meets_FlipReversesTheRows :
    let s := rldAt 4 2 0 [3, 1, 0, 0]
    let s' := rldAt 4 2 2 [3, 1, 0, 0]
    s.cfg.wf = true ∧ s.cfg = s'.cfg ∧ s.rld.Running s.cfg ∧ s.rld.Mirrors s'.rld ∧
      s.rld.sh.inPos.toNat ≤ s.rld.sh.inLen.toNat := by
  refine ⟨test_default_parameters, rfl, ?_, ⟨by decide +kernel, by decide +kernel, by decide +kernel, by decide +kernel, ?_⟩,
    by decide +kernel⟩
  · constructor <;> decide +kernel
  · have h : ∀ x < 4, ∀ y < 2, (rldAt 4 2 2 [3, 1, 0, 0]).rld.sh.outByte .rld ((2 - 1 - y) * 4 + x) =
        (rldAt 4 2 0 [3, 1, 0, 0]).rld.sh.outByte .rld (y * 4 + x) := by decide +kernel
    exact fun x y hx hy => h x hx y hy

/-- An IDLE unit with a configuration and no input. -/
def idleWith (u : UnitId) (c0 c1 c2 : Word) : State := State.reset.setShell u ((State.reset.shell u).load c0 c1 c2 [])

/-- The largest images of `StartPfe`, the largest of another colour type, and one pixel too wide. -/
theorem test_meets_StartPfe :
    let s := idleWith .pfe 65535 256 8
    let v := idleWith .pfe 65536 1 8
    let p := s.pfe
    (allRunning.pfe.sh.state ≠ .idle) ∧ (p.sh.state = .idle ∧ p.sh.inLen.toNat ≤ s.cfg.maxIn ∧ 1 ≤ p.width ∧
      p.width ≤ s.cfg.maxW ∧ 1 ≤ p.height ∧ p.height ≤ s.cfg.maxH ∧ (p.colorType = 0 ∧ p.depth ∈ [1, 2, 4, 8, 16]) ∧
      (p.width * (1 * p.depth) + 7) / 8 * p.height ≤ s.cfg.maxOut) ∧
      (v.pfe.sh.state = .idle ∧ s.cfg.maxW < v.pfe.width) := by decide +kernel

theorem test_meets_StartLzd :
    let s := idleWith .lzd 8 0x1000000 0
    let l := s.lzd
    allRunning.lzd.sh.state ≠ .idle ∧ (l.sh.state = .idle ∧ l.sh.inLen.toNat ≤ s.cfg.maxIn ∧ l.outMax ≤ s.cfg.maxOut ∧
      l.tiff = false ∧ 2 ≤ l.depth ∧ l.depth ≤ 8) ∧
      ((idleWith .lzd 0x107 0 0).lzd.sh.state = .idle ∧ (idleWith .lzd 0x107 0 0).lzd.tiff = true ∧
        (idleWith .lzd 0x107 0 0).lzd.depth = 7) := by decide +kernel

theorem test_meets_StartG4e :
    let s := idleWith .g4e 65535 0 0
    let g := s.g4e
    allRunning.g4e.sh.state ≠ .idle ∧ (g.sh.state = .idle ∧ g.sh.inLen.toNat ≤ s.cfg.maxIn ∧ 1 ≤ g.width ∧
      g.width ≤ s.cfg.maxW ∧ g.height ≤ s.cfg.maxH ∧ (g.width + 7) / 8 * g.height ≤ s.cfg.maxIn) ∧
      ((idleWith .g4e 0 1 0).g4e.sh.state = .idle ∧ (idleWith .g4e 0 1 0).g4e.width = 0) := by decide +kernel

theorem test_meets_StartRld :
    let s := idleWith .rld 4096 4096 0
    let r := s.rld
    allRunning.rld.sh.state ≠ .idle ∧ (r.sh.state = .idle ∧ r.sh.inLen.toNat ≤ s.cfg.maxIn ∧ 1 ≤ r.width ∧
      r.width ≤ s.cfg.maxW ∧ 1 ≤ r.height ∧ r.height ≤ s.cfg.maxH ∧ r.width * r.height ≤ s.cfg.maxOut) ∧
      ((idleWith .rld 4096 4097 0).rld.sh.state = .idle ∧
        s.cfg.maxOut < (idleWith .rld 4096 4097 0).rld.width * (idleWith .rld 4096 4097 0).rld.height) := by decide +kernel

/-- `ClearAndReserved`, `RegisterWrites`, `BufferAccesses`: a BUSY unit and one that is not, indices at the bounds. -/
theorem test_meets_host_accesses :
    (allRunning.shell .lzd).state = .busy ∧ (State.reset.shell .lzd).state ≠ .busy ∧ (3 : Word) ≠ 1 ∧ (3 : Word) ≠ 2 ∧
      (10 : BitVec 4) ≠ 0 ∧ 11 ≤ (15 : BitVec 4).toNat ∧ 0xFFFFFF < State.reset.cfg.maxIn ∧
      State.reset.cfg.maxIn ≤ 0x1000000 ∧ (State.reset.shell .lzd).state = .idle := by decide +kernel

/-- `allRunning` with PFE at the end of its run. -/
def oneDone : State := { allRunning with pfe := { allRunning.pfe with sh := { allRunning.pfe.sh with state := .done } } }

/-- `RegisterReads` for a unit that is not BUSY; for BUSY ones see `test_good_all_running`. -/
theorem test_meets_RegisterReads : oneDone.Good ∧ (oneDone.shell .pfe).state ≠ .busy := by
  refine ⟨⟨test_default_parameters, ?_, test_good_lzd, test_good_g4e, test_good_rld⟩, by decide +kernel⟩
  refine ⟨?_, by decide +kernel, by decide +kernel, ?_, ?_, by decide +kernel, fun h => absurd h (by decide +kernel)⟩
  · constructor <;> (try unfold cellsBelow) <;> decide +kernel
  · unfold cellsBelow; decide +kernel
  · unfold cellsBelow; decide +kernel

/-- `RunsEnd` for G4E between rows; inside a row it is in `test_good_all_running`. -/
theorem test_meets_RunsEnd_g4e :
    ({ allRunning with g4e := (g4Start 1 [0x20]).g4e } : State).Good ∧ (g4Start 1 [0x20]).g4e.sh.state = .busy ∧
      (g4Start 1 [0x20]).g4e.inrow = false := by
  refine ⟨⟨test_default_parameters, test_good_pfe, test_good_lzd, ?_, test_good_rld⟩, by decide +kernel, by decide +kernel⟩
  refine ⟨?_, by decide +kernel, by decide +kernel, ?_, ?_, by decide +kernel, fun _ => test_running_g4_start⟩
  · constructor <;> (try unfold cellsBelow) <;> decide +kernel
  · unfold cellsBelow; decide +kernel
  · unfold cellsBelow; decide +kernel

theorem test_meets_InterleavingsAgree : allRunning.Good ∧ [UnitId.pfe, .rld, .pfe].Perm [.rld, .pfe, .pfe] :=
  ⟨test_good_all_running.1, by decide⟩

/-- `UnitTouchesOnlyItself`: a step of a BUSY unit, and a turn of an IDLE one. -/
theorem test_meets_UnitTouchesOnlyItself :
    (∃ t, unitStep .rld (rldAt 4 2 0 [3, 1]) = .next t ∧ t.rld.x = 3) ∧
      ∃ t, unitStep .pfe State.reset = .next t ∧ t.pfe.sh.state = .idle :=
  ⟨test_seen (f := fun t => t.rld.x) (by decide +kernel), test_seen (f := fun t => t.pfe.sh.state) (by decide +kernel)⟩

/-- `FaultsArePrecise`: faults of PFE, of LZD, and the overflow of G4E. -/
theorem test_meets_FaultsArePrecise :
    (∃ t, unitStep .pfe (pfeAt 4 2 8 [5]) = .next t ∧ (t.pfe.sh.state, t.pfe.sh.err) = (.fault, .filter)) ∧
      (∃ t, unitStep .lzd (lzdOld 9 [0x07]) = .next t ∧ (t.lzd.sh.state, t.lzd.sh.err) = (.fault, .lzwCode)) ∧
      (∃ t, unitStep .g4e (g4Full 0x20 0x00) = .next t ∧ (t.g4e.sh.state, t.g4e.sh.err) = (.fault, .ovf)) ∧
      (pfeAt 4 2 8 [5]).pfe.sh.state = .busy ∧ (lzdOld 9 [0x07]).lzd.sh.state = .busy ∧
      (g4Full 0x20 0x00).g4e.sh.state = .busy :=
  ⟨test_seen (f := fun t => (t.pfe.sh.state, t.pfe.sh.err)) (by decide +kernel),
    test_seen (f := fun t => (t.lzd.sh.state, t.lzd.sh.err)) (by decide +kernel),
    test_seen (f := fun t => (t.g4e.sh.state, t.g4e.sh.err)) (by decide +kernel),
    by decide +kernel, by decide +kernel, by decide +kernel⟩

/-- `StateMoves`: a START, a run's end, a CLEAR of a finished unit, a hardware reset of a BUSY one. -/
theorem test_meets_StateMoves :
    (∃ t, step (hostAt (idleWith .g4e 8 0 0) (.write .g4e 0 1)) = .next t ∧ t.g4e.sh.state = .busy) ∧
      (∃ t, step (rldAt 4 2 0 [0, 1]) = .next t ∧ t.rld.sh.state = .done) ∧
      (∃ t, step (hostAt oneDone (.write .pfe 0 2)) = .next t ∧ t.pfe.sh.state = .idle) ∧
      ∃ t, step (hostAt allRunning .hardReset) = .next t ∧ t.lzd.sh.state = .idle :=
  ⟨test_seen (f := fun t => t.g4e.sh.state) (by decide +kernel), test_seen (f := fun t => t.rld.sh.state) (by decide +kernel),
    test_seen (f := fun t => t.pfe.sh.state) (by decide +kernel), test_seen (f := fun t => t.lzd.sh.state) (by decide +kernel)⟩

end Sys2Proof.Tests
end

section
/-! PROOFS. The machine's invariant is kept by every step (10_state.md), and what moves STATE. -/

namespace Sys2Proof.Proofs

open Sys2Proof.Machine Sys2Proof.Laws

/-! ### The parameters -/

/-- `MAX_OUT` is a number of a register (00_scope.md R7). -/
theorem wf_maxOut {cfg : Config} (h : cfg.wf = true) : cfg.maxOut ≤ 2 ^ 31 := by
  simp only [Config.wf, Bool.and_eq_true, decide_eq_true_eq] at h
  omega

theorem ceilDiv_mono {a b : Nat} (h : a ≤ b) (d : Nat) : ceilDiv a d ≤ ceilDiv b d := by
  unfold ceilDiv
  exact Nat.div_le_div_right (by omega)

/-! ### The shell: what keeps `Shell.Good` -/

section
variable {cfg : Config} {u : UnitId} {sh : Shell}

theorem shellGood_reset (cfg : Config) (u : UnitId) (m n : Nat) : (Shell.reset m n).Good cfg u where
  inCanonical := rfl
  outCanonical := rfl
  inCells := by intro c hc; cases hc
  outCells := by intro c hc; cases hc
  errOnlyInFault := by simp [Shell.reset]
  flagsOnlyInDone _ := rfl
  errPosOnlyInFault _ := rfl
  reserved0 := BitVec.zero_and
  reserved1 := BitVec.zero_and
  reserved2 := BitVec.zero_and
  cursor h := by cases h

/-- A fault entry with a code (60_exceptions.md R318). -/
theorem shellGood_raise (h : sh.Good cfg u) {e : ErrCode} (he : e ≠ .none) (p : Word) : (sh.raise e p).Good cfg u :=
  { h with
    errOnlyInFault := by simpa using he
    flagsOnlyInDone := fun _ => rfl
    errPosOnlyInFault := by simp
    cursor := by simp }

/-- The end of a run (60_exceptions.md R330). -/
theorem shellGood_finish (h : sh.Good cfg u) (hb : sh.state = .busy) (f : Flags) : (sh.finish f).Good cfg u :=
  { h with
    errOnlyInFault := by simp
    flagsOnlyInDone := by simp
    errPosOnlyInFault := fun _ => h.errPosOnlyInFault (by simp [hb])
    cursor := by simp }

/-- What an element of a run does to the registers and buffers: the cursor moves inside the input, `OUT` takes bytes inside
its space. -/
theorem shellGood_run (h : sh.Good cfg u) {p n : Word} {m : Mem 8} (hp : p.toNat ≤ sh.inLen.toNat)
    (hm : canonical m = true) (hc : cellsBelow cfg.maxOut m) :
    ({ sh with inPos := p, outLen := n, outBuf := m } : Shell).Good cfg u :=
  { h with
    outCanonical := hm
    outCells := hc
    cursor := fun hb => ⟨hp, (h.cursor hb).2⟩ }

/-- The cursor does not wrap while it stays inside the input (20_memory.md R78). -/
theorem advance_inPos_toNat {n : Nat} (hn : sh.inPos.toNat + n ≤ sh.inLen.toNat) :
    (sh.advance n).inPos.toNat = sh.inPos.toNat + n :=
  word_toNat_of_lt (by have := sh.inLen.isLt; omega)

theorem shellGood_advance (h : sh.Good cfg u) {n : Nat} (hn : sh.inPos.toNat + n ≤ sh.inLen.toNat) :
    (sh.advance n).Good cfg u :=
  shellGood_run (n := sh.outLen) h ((advance_inPos_toNat hn).trans_le hn) h.outCanonical h.outCells

/-- A store into `OUT` inside its space. -/
theorem shellGood_store (h : sh.Good cfg u) (a : Nat) (vs : List Byte) (hn : a + vs.length ≤ cfg.maxOut) :
    ({ sh with outBuf := store sh.outBuf a vs } : Shell).Good cfg u :=
  { h with
    outCanonical := canonical_store _ _ _ h.outCanonical
    outCells := cellsBelow_store _ _ _ h.outCells hn }

/-- What START finds (44_host_commands.md R292). -/
theorem shellGood_startClear (h : sh.Good cfg u) (hi : sh.state = .idle) : sh.startClear.Good cfg u :=
  { h with
    errOnlyInFault := by simp [hi]
    flagsOnlyInDone := fun _ => rfl
    errPosOnlyInFault := fun _ => rfl
    cursor := by simp [hi] }

/-- An accepted START leaves the unit BUSY at the start of its input. -/
theorem shellGood_run_starts (h : sh.Good cfg u) (hi : sh.state = .idle) (hl : sh.inLen.toNat ≤ cfg.maxIn) (n : Word) :
    ({ sh with outLen := n, inPos := 0, state := .busy } : Shell).Good cfg u :=
  { h with
    errOnlyInFault := by simpa [hi] using h.errOnlyInFault
    flagsOnlyInDone := fun _ => h.flagsOnlyInDone (by simp [hi])
    errPosOnlyInFault := fun _ => h.errPosOnlyInFault (by simp [hi])
    cursor := fun _ => ⟨Nat.zero_le _, hl⟩ }

theorem shellGood_clear (h : sh.Good cfg u) : sh.clear.Good cfg u := by
  have idle : ∀ m n, canonical m = true → cellsBelow cfg.maxOut m →
      ({ sh with state := .idle, err := .none, flags := .clear, errPos := 0, outBuf := m, outGen := n } : Shell).Good
        cfg u := fun m n hm hc =>
    { h with
      outCanonical := hm
      outCells := hc
      errOnlyInFault := by simp
      flagsOnlyInDone := fun _ => rfl
      errPosOnlyInFault := fun _ => rfl
      cursor := by simp }
  unfold Shell.clear
  split
  · exact h
  · exact idle [] _ rfl (by intro c hc; cases hc)
  · exact idle _ sh.outGen h.outCanonical h.outCells
  · exact idle _ sh.outGen h.outCanonical h.outCells

theorem shellGood_writeIn (h : sh.Good cfg u) (a : Nat) (v : Byte) : (sh.writeIn cfg.maxIn a v).Good cfg u := by
  unfold Shell.writeIn
  split_ifs with hb ha
  · exact h
  · exact { h with
      inCanonical := canonical_store _ _ _ h.inCanonical
      inCells := cellsBelow_store _ _ _ h.inCells ha }
  · exact h

theorem shellGood_writeReg (h : sh.Good cfg u) (i : BitVec 4) (v : Word) : (sh.writeReg u i v).Good cfg u := by
  have masked : ∀ m : Word, v &&& m &&& ~~~m = 0 := fun m => by simp [BitVec.and_assoc]
  unfold Shell.writeReg
  split_ifs with h2 hb h3 h8 h9 h10
  · exact { h with }
  · exact h
  · exact { h with cursor := fun hs => absurd ((busy_iff sh).mpr hs) hb }
  · exact { h with reserved0 := h8 ▸ masked _ }
  · exact { h with reserved1 := h9 ▸ masked _ }
  · exact { h with reserved2 := h10 ▸ masked _ }
  · exact h

end

/-! ### Passes and their sizes (40_png_filter.md R141 to R143, R152, R153) -/

/-- A position counted by `stepsBelow` lies below the bound, and conversely. -/
theorem lt_stepsBelow {n o st k : Nat} (hs : 0 < st) : k < stepsBelow n o st ↔ o + k * st < n := by
  unfold stepsBelow ceilDiv
  split
  · next h =>
    rw [Nat.lt_iff_add_one_le, Nat.le_div_iff_mul_le hs, Nat.add_mul]
    omega
  · next h =>
    have := Nat.zero_le (k * st)
    omega

theorem stepsBelow_le (n o st : Nat) (hs : 0 < st) : stepsBelow n o st ≤ n := by
  by_contra h
  have h1 := (lt_stepsBelow (n := n) (o := o) (k := n) hs).mp (by omega)
  have h2 : n ≤ n * st := Nat.le_mul_of_pos_right n hs
  omega

theorem stepsBelow_one (n : Nat) : stepsBelow n 0 1 = n := by
  unfold stepsBelow ceilDiv
  split <;> omega

theorem passes_steps {p : Pfe} {g : PassGeom} (h : g ∈ p.passes) : 0 < g.xs ∧ 0 < g.ys := by
  unfold Pfe.passes at h
  split at h
  · exact (by decide : ∀ g ∈ adam7, 0 < g.xs ∧ 0 < g.ys) g h
  · exact (by decide : ∀ g ∈ [(⟨0, 0, 1, 1⟩ : PassGeom)], 0 < g.xs ∧ 0 < g.ys) g h

theorem passes_length_le (p : Pfe) : p.passes.length ≤ 7 := by
  unfold Pfe.passes
  split <;> decide

/-- The first pass holds the pixel `(0, 0)` (R152). -/
theorem passes_head (p : Pfe) :
    ∃ g, p.passes[0]? = some g ∧ p.passes.headD ⟨0, 0, 1, 1⟩ = g ∧ g.xo = 0 ∧ g.yo = 0 := by
  unfold Pfe.passes
  split
  · exact ⟨⟨0, 0, 8, 8⟩, rfl, rfl, rfl, rfl⟩
  · exact ⟨⟨0, 0, 1, 1⟩, rfl, rfl, rfl, rfl⟩

theorem passes_of_not_interlaced {p : Pfe} (h : p.interlaced = false) : p.passes = [⟨0, 0, 1, 1⟩] := by
  rw [Pfe.passes, h]; rfl

theorem passFull_iff (p : Pfe) (g : PassGeom) : p.passFull g = true ↔ 0 < p.passWidth g ∧ 0 < p.passHeight g := by
  simp [Pfe.passFull, Nat.pos_iff_ne_zero]

theorem passWidth_le {p : Pfe} {g : PassGeom} (h : g ∈ p.passes) : p.passWidth g ≤ p.width :=
  stepsBelow_le _ _ _ (passes_steps h).1

theorem passHeight_le {p : Pfe} {g : PassGeom} (h : g ∈ p.passes) : p.passHeight g ≤ p.height :=
  stepsBelow_le _ _ _ (passes_steps h).2

theorem passBytes_le {p : Pfe} {g : PassGeom} (h : g ∈ p.passes) : p.passBytes g ≤ p.rowBytes :=
  ceilDiv_mono (Nat.mul_le_mul_right _ (passWidth_le h)) 8

theorem pfeLegal_iff (cfg : Config) (p : Pfe) :
    p.legal cfg = true ↔ 1 ≤ p.width ∧ p.width ≤ cfg.maxW ∧ 1 ≤ p.height ∧ p.height ≤ cfg.maxH ∧
      p.depth ∈ legalDepths p.colorType ∧ p.sh.inLen.toNat ≤ cfg.maxIn ∧ p.rowBytes * p.height ≤ cfg.maxOut := by
  simp only [Pfe.legal, Bool.and_eq_true, decide_eq_true_eq, List.contains_iff_mem]
  tauto

/-- The pixel sizes of R141: whole bytes, or a part of one. -/
theorem pixBits_of_legal {cfg : Config} {p : Pfe} (h : p.legal cfg = true) :
    p.pixBits ∈ [1, 2, 4, 8, 16, 24, 32, 48, 64] := by
  obtain ⟨-, -, -, -, h, -⟩ := (pfeLegal_iff cfg p).mp h
  have key : ∀ d, d ∈ legalDepths p.colorType → channels p.colorType * d ∈ [1, 2, 4, 8, 16, 24, 32, 48, 64] := by
    unfold legalDepths channels
    split_ifs <;> decide
  exact key _ h

theorem rowBytes_le_lineCells {cfg : Config} {p : Pfe} (h : p.legal cfg = true) : p.rowBytes ≤ lineCells cfg := by
  have hp : p.pixBits ≤ 64 := (by decide : ∀ n ∈ [1, 2, 4, 8, 16, 24, 32, 48, 64], n ≤ 64) _ (pixBits_of_legal h)
  obtain ⟨-, hw, -⟩ := (pfeLegal_iff cfg p).mp h
  exact ceilDiv_mono (Nat.mul_le_mul hw hp) 8

theorem rowBytes_le_maxOut {cfg : Config} {p : Pfe} (h : p.legal cfg = true) : p.rowBytes ≤ cfg.maxOut := by
  obtain ⟨-, -, hh, -, -, -, hs⟩ := (pfeLegal_iff cfg p).mp h
  exact (Nat.le_mul_of_pos_right _ hh).trans hs

/-! ### Where the pixels of a scanline go (R156, R157) -/

/-- A cell of an image row lies on the canvas. -/
theorem row_cell_lt {y o w h : Nat} (hy : y < h) (ho : o < w) : y * w + o < w * h := by
  calc y * w + o < y * w + w := by omega
    _ = w * (y + 1) := by ring
    _ ≤ w * h := Nat.mul_le_mul_left _ hy

/-- The masked stores of a pixel of the image stay on the canvas. -/
theorem pixelPokes_inside {cfg : Config} {p : Pfe} (hl : p.legal cfg = true) {x y : Nat} (k : Nat) (hx : x < p.width)
    (hy : y < p.height) : ∀ q ∈ p.pixelPokes x y k, q.cellAt < p.rowBytes * p.height := by
  have hb := pixBits_of_legal hl
  intro q hq
  unfold Pfe.pixelPokes at hq
  dsimp only at hq
  split at hq
  · next h8 =>
    obtain ⟨j, hj, rfl⟩ := List.mem_map.mp hq
    have hj : j < p.bpp := List.mem_range.mp hj
    have whole : p.pixBits = 8 * p.bpp := by
      have : ∀ n ∈ [1, 2, 4, 8, 16, 24, 32, 48, 64], 8 ≤ n → n = 8 * max 1 (n / 8) := by decide
      exact this _ hb h8
    have hr : p.rowBytes = p.width * p.bpp := by
      unfold Pfe.rowBytes ceilDiv
      rw [whole, Nat.mul_left_comm]
      omega
    have ho : x * p.bpp + j < p.rowBytes := by
      rw [hr]
      calc x * p.bpp + j < x * p.bpp + p.bpp := by omega
        _ = (x + 1) * p.bpp := by ring
        _ ≤ p.width * p.bpp := Nat.mul_le_mul_right _ hx
    simpa [Nat.add_assoc] using row_cell_lt hy ho
  · next h8 =>
    obtain rfl := List.mem_singleton.mp hq
    have hpos : 1 ≤ p.pixBits := (by decide : ∀ n ∈ [1, 2, 4, 8, 16, 24, 32, 48, 64], 1 ≤ n) _ hb
    have hm : (x + 1) * p.pixBits ≤ p.width * p.pixBits := Nat.mul_le_mul_right _ hx
    have ho : x * p.pixBits / 8 < p.rowBytes := by
      unfold Pfe.rowBytes ceilDiv
      rw [Nat.add_mul] at hm
      omega
    exact row_cell_lt hy ho

/-- The masked stores of a scanline of a pass stay on the canvas (R152, R157). -/
theorem scatter_inside {cfg : Config} {p : Pfe} (hl : p.legal cfg = true) {g : PassGeom} (hg : g ∈ p.passes)
    (hw : p.pw.toNat = p.passWidth g) (hr : p.row.toNat < p.passHeight g) :
    ∀ q ∈ p.scatter g, q.cellAt < p.rowBytes * p.height := by
  intro q hq
  obtain ⟨k, hk, hq⟩ := List.mem_flatMap.mp hq
  have hk : k < p.passWidth g := hw ▸ List.mem_range.mp hk
  have hs := passes_steps hg
  exact pixelPokes_inside hl k ((lt_stepsBelow hs.1).mp hk) ((lt_stepsBelow hs.2).mp hr) q hq

/-- Masked stores inside `OUT` keep what holds of the unit's registers and buffers. -/
theorem shellGood_pokes {cfg : Config} (ks : List Poke) : ∀ {sh sh' : Shell}, sh.Good cfg .pfe →
    sh.pokes cfg.maxOut ks = .ok sh' → sh'.Good cfg .pfe := by
  induction ks with
  | nil =>
    intro sh sh' h hs
    obtain rfl : sh = sh' := Except.ok.inj hs
    exact h
  | cons k ks ih =>
    intro sh sh' h hs
    rw [Shell.pokes] at hs
    split at hs
    · next sh1 h1 =>
      obtain ⟨hle, rfl⟩ := (storeOut_eq_ok _ _ _ _ _ _).mp h1
      exact ih (shellGood_store h _ _ hle) hs
    · cases hs

/-- In a run the scanline is placed, inside `OUT`, and nothing but `OUT` changes. -/
theorem place_keeps {cfg : Config} {p : Pfe} (hr : p.Running cfg) (hs : p.sh.Good cfg .pfe) {g : PassGeom}
    (hg : p.passes[p.pass.toNat]? = some g) :
    ∃ sh, p.place cfg g = .ok sh ∧ sh = { p.sh with outBuf := sh.outBuf } ∧ sh.Good cfg .pfe := by
  have hl := hr.legal
  obtain ⟨-, -, -, -, -, -, hsize⟩ := (pfeLegal_iff cfg p).mp hl
  obtain ⟨g', hg', hpw, hph, -⟩ := hr.pass
  obtain rfl : g' = g := Option.some.inj (hg'.symm.trans hg)
  have hrow : p.row.toNat < p.passHeight g' := hph ▸ hr.row
  have hmem : g' ∈ p.passes := List.mem_of_getElem? hg
  unfold Pfe.place
  split
  · have hin := scatter_inside hl hmem hpw hrow
    obtain ⟨sh, h1, h2, -⟩ := pokes_fit cfg.maxOut (p.scatter g') p.sh fun q hq => (hin q hq).trans_le hsize
    exact ⟨sh, h1, h2, shellGood_pokes _ hs h1⟩
  · next hi =>
    have hone : g' = ⟨0, 0, 1, 1⟩ := by
      rw [passes_of_not_interlaced (by simpa using hi)] at hmem
      exact List.mem_singleton.mp hmem
    have hrow : p.row.toNat < p.height := by
      rw [hone, Pfe.passHeight, stepsBelow_one] at hrow
      exact hrow
    have hfit : p.row.toNat * p.rowBytes + (p.line p.rowBytes).length ≤ cfg.maxOut := by
      rw [Pfe.line, readBlock_length]
      calc p.row.toNat * p.rowBytes + p.rowBytes = p.rowBytes * (p.row.toNat + 1) := by ring
        _ ≤ p.rowBytes * p.height := Nat.mul_le_mul_left _ hrow
        _ ≤ cfg.maxOut := hsize
    exact ⟨_, storeOut_fits hfit, rfl, shellGood_store hs _ _ hfit⟩

/-! ### Passes entered -/

/-- A pass with scanlines, entered in a legal configuration, is a run (R154, R159). -/
theorem enterPass_running {cfg : Config} (hwf : cfg.wf = true) {p : Pfe} (hl : p.legal cfg = true) {q : Nat} {g : PassGeom}
    (hg : p.passes[q]? = some g) (hf : p.passFull g = true) : (p.enterPass q g).Running cfg := by
  have hout := wf_maxOut hwf
  have hmem : g ∈ p.passes := List.mem_of_getElem? hg
  have hq : q < 16 := by
    have h1 := (List.getElem?_eq_some_iff.mp hg).1
    have h2 := passes_length_le p
    omega
  have hpass : (p.enterPass q g).pass.toNat = q := by
    rw [enterPass_pass, BitVec.toNat_ofNat]
    exact Nat.mod_eq_of_lt hq
  have hpw : (p.enterPass q g).pw.toNat = p.passWidth g :=
    word_toNat_of_lt ((passWidth_le hmem).trans_lt p.sh.cfg0.isLt)
  have hph : (p.enterPass q g).ph.toNat = p.passHeight g :=
    word_toNat_of_lt ((passHeight_le hmem).trans_lt p.sh.cfg1.isLt)
  have hprb : (p.enterPass q g).prb.toNat = p.passBytes g := by
    have h1 := passBytes_le hmem
    have h2 := rowBytes_le_maxOut hl
    exact word_toNat_of_lt (by omega)
  refine ⟨hl, ⟨g, ?_, hpw, hph, hprb, hf⟩, ?_⟩
  · rw [hpass]; exact hg
  · rw [hph, enterPass_row]; exact ((passFull_iff p g).mp hf).2

/-- Zeroing the prior row of a pass stays inside `PRIOR`. -/
theorem enterPass_prior_keeps {cfg : Config} {p : Pfe} (hl : p.legal cfg = true) {g : PassGeom} (hg : g ∈ p.passes) (q : Nat)
    (hc : canonical p.prior = true) (hb : cellsBelow (lineCells cfg) p.prior) :
    canonical (p.enterPass q g).prior = true ∧ cellsBelow (lineCells cfg) (p.enterPass q g).prior := by
  refine ⟨canonical_store _ _ _ hc, cellsBelow_store _ _ _ hb ?_⟩
  have h1 := passBytes_le hg
  have h2 := rowBytes_le_lineCells hl
  rw [List.length_replicate]
  omega

/-! ### START -/

/-- PFE with its canvas cleared and its run begun, before the first pass is entered (R159). -/
def startCanvas (p : Pfe) : Pfe :=
  { p with sh := { p.sh.clearCanvas (p.rowBytes * p.height) with
    outLen := word (p.rowBytes * p.height), inPos := 0, state := .busy } }

theorem pfeInit_eq (p : Pfe) : p.init = (startCanvas p).enterPass 0 (p.passes.headD ⟨0, 0, 1, 1⟩) := rfl

/-- PFE's initialisation from a legal configuration is a run (R159). -/
theorem pfeGood_init {cfg : Config} (hwf : cfg.wf = true) {p : Pfe} (h : p.Good cfg) (hi : p.sh.state = .idle)
    (hl : p.legal cfg = true) : p.init.Good cfg := by
  obtain ⟨hw, -, hh, -, -, hin, hsize⟩ := (pfeLegal_iff cfg p).mp hl
  obtain ⟨g, hg, hhead, hxo, hyo⟩ := passes_head p
  have hmem := List.mem_of_getElem? hg
  have hfull : p.passFull g = true := by
    have hs := passes_steps hmem
    exact (passFull_iff _ _).mpr ⟨(lt_stepsBelow hs.1).mpr (by omega), (lt_stepsBelow hs.2).mpr (by omega)⟩
  have hcanvas := shellGood_store h.shell 0 (List.replicate (p.rowBytes * p.height) 0)
    (by rw [List.length_replicate]; omega)
  have hprior := enterPass_prior_keeps hl hmem 0 h.priorCanonical h.priorCells
  rw [pfeInit_eq, hhead]
  exact { h with
    shell := shellGood_run_starts hcanvas hi hin _
    priorCanonical := hprior.1
    priorCells := hprior.2
    running := fun _ => enterPass_running (p := startCanvas p) hwf hl hg hfull }

theorem pfeGood_start {cfg : Config} (hwf : cfg.wf = true) {p : Pfe} (h : p.Good cfg) : (p.start cfg).Good cfg := by
  unfold Pfe.start
  dsimp only
  split_ifs with hi hl
  · have hclear : Pfe.Good cfg { p with sh := p.sh.startClear } :=
      { h with
        shell := shellGood_startClear h.shell hi
        noShort := ⟨rfl, rfl⟩
        running := by simp [hi] }
    exact pfeGood_init hwf hclear hi hl
  · exact { h with
      shell := shellGood_raise (shellGood_startClear h.shell hi) (by decide) 0
      noShort := ⟨rfl, rfl⟩
      running := by simp }
  · exact h

/-! ### The scanline step -/

theorem reconstruct_keeps (f : Filter) (n : Nat) (raw : List Byte) : ∀ (k : Nat) (p : Pfe), canonical p.curr = true →
    cellsBelow n p.curr → k + raw.length ≤ n →
    canonical (p.reconstruct f k raw).curr = true ∧ cellsBelow n (p.reconstruct f k raw).curr := by
  induction raw with
  | nil => intro k p hc hb _; exact ⟨hc, hb⟩
  | cons r rs ih =>
    intro k p hc hb hn
    rw [List.length_cons] at hn
    exact ih (k + 1) _ (canonical_store _ _ _ hc) (cellsBelow_store _ _ _ hb (by simp; omega)) (by omega)

/-- PFE after a scanline, before the end of the pass is looked at (R155). -/
def nextRow (p : Pfe) : Pfe :=
  { p with
    prior := store p.prior 0 (p.line p.prb.toNat)
    sh := p.sh.advance (1 + p.prb.toNat)
    row := word (p.row.toNat + 1) }

theorem endScanline_eq (p : Pfe) :
    p.endScanline = if word (p.row.toNat + 1) = p.ph then (nextRow p).endPass else nextRow p := rfl

theorem nextRow_nextPass (p : Pfe) : (nextRow p).nextPass (nextRow p).pass.toNat = p.nextPass p.pass.toNat :=
  nextPass_congr (p := nextRow p) (q := p) rfl rfl rfl _

/-- What R155 does after a scanline has been placed in a run, where its record was complete. -/
theorem pfeGood_endScanline {cfg : Config} (hwf : cfg.wf = true) {p : Pfe} (h : p.Good cfg) (hb : p.sh.state = .busy)
    (hin : p.sh.inPos.toNat + (1 + p.prb.toNat) ≤ p.sh.inLen.toNat) : p.endScanline.Good cfg := by
  obtain ⟨hl, ⟨g, hg, hpw, hph, hprb, hf⟩, hrow⟩ := h.running hb
  have hsh := shellGood_advance h.shell hin
  have hline : 0 + (p.line p.prb.toNat).length ≤ lineCells cfg := by
    have h1 := passBytes_le (List.mem_of_getElem? hg)
    have h2 := rowBytes_le_lineCells hl
    rw [Pfe.line, readBlock_length]
    omega
  have hcanon := canonical_store p.prior 0 (p.line p.prb.toNat) h.priorCanonical
  have hcells := cellsBelow_store p.prior 0 _ h.priorCells hline
  have hnext : (word (p.row.toNat + 1)).toNat = p.row.toNat + 1 :=
    word_toNat_of_lt (by have := p.ph.isLt; omega)
  have hq : p.pass.toNat < p.passes.length := (List.getElem?_eq_some_iff.mp hg).1
  rw [endScanline_eq]
  split
  · cases hn : p.passes[p.nextPass p.pass.toNat]? with
    | some g' =>
      have hf' := (nextPass_spec p _ hq).2.2.2 g' hn
      have hprior := enterPass_prior_keeps (p := nextRow p) hl (List.mem_of_getElem? hn) 0 hcanon hcells
      rw [endPass_some (nextRow p) (p.nextPass p.pass.toNat) g' (nextRow_nextPass p) hn]
      exact { h with
        shell := hsh
        priorCanonical := hprior.1
        priorCells := hprior.2
        running := fun _ => enterPass_running (p := nextRow p) hwf hl hn hf' }
    | none =>
      rw [endPass_none (nextRow p) (p.nextPass p.pass.toNat) (nextRow_nextPass p) hn]
      exact { h with
        shell := shellGood_finish hsh hb _
        priorCanonical := hcanon
        priorCells := hcells
        noShort := ⟨rfl, rfl⟩
        running := by simp }
  · next hne =>
    have hlt : (word (p.row.toNat + 1)).toNat < p.ph.toNat := by
      have : (word (p.row.toNat + 1)).toNat ≠ p.ph.toNat := fun e => hne (BitVec.eq_of_toNat_eq e)
      omega
    exact { h with
      shell := hsh
      priorCanonical := hcanon
      priorCells := hcells
      running := fun _ => ⟨hl, ⟨g, hg, hpw, hph, hprb, hf⟩, hlt⟩ }

/-- A scanline step of a run goes on, to a good unit (R155). -/
theorem scanline_good {cfg : Config} (hwf : cfg.wf = true) {p : Pfe} (h : p.Good cfg) (hb : p.sh.state = .busy)
    (f : Filter) {raw : List Byte} (hraw : raw.length = p.prb.toNat)
    (hin : p.sh.inPos.toNat + (1 + p.prb.toNat) ≤ p.sh.inLen.toNat) :
    ∃ q, p.scanline cfg f raw = .ok q ∧ q.Good cfg := by
  have hr := h.running hb
  obtain ⟨g, hg, -, -, hprb, -⟩ := hr.pass
  have hlen : raw.length ≤ lineCells cfg := by
    have h1 := passBytes_le (List.mem_of_getElem? hg)
    have h2 := rowBytes_le_lineCells hr.legal
    omega
  obtain ⟨hcanon, hcells⟩ := reconstruct_keeps f _ raw 0 p h.currCanonical h.currCells (by omega)
  have hframe := reconstruct_frame f raw 0 p
  have hrec : (p.reconstruct f 0 raw).Good cfg := by
    rw [hframe]
    exact { h with
      currCanonical := hcanon
      currCells := hcells
      running := fun _ => ⟨hr.legal, hr.pass, hr.row⟩ }
  have hrb : (p.reconstruct f 0 raw).sh.state = .busy := by rw [hframe]; exact hb
  obtain ⟨sh, hp, hs, hgood⟩ := place_keeps (hrec.running hrb) hrec.shell (g := g) (by rw [hframe]; exact hg)
  refine ⟨_, (scanline_eq_ok cfg f raw p _).mpr ⟨hlen, hr.row, g, sh, hg, hp, rfl⟩, ?_⟩
  rw [hs, hframe]
  rw [hs] at hgood
  exact pfeGood_endScanline hwf { h with
    shell := by rw [hframe] at hgood; exact hgood
    currCanonical := hcanon
    currCells := hcells
    running := fun _ => ⟨hr.legal, hr.pass, hr.row⟩ } hb hin

/-! ### PFE's turn -/

theorem exec_filter (f : Filter) (raw : List Byte) (s : State) : exec (f.instr raw) s = runScanline f raw s := by
  cases f <;> rfl

/-- A record that decodes is a filter element and is complete (30_encoding.md R101, R102). -/
theorem decodeScan_ok {prb : Nat} {bs rest : List Byte} {i : Instr} (h : decodeScan prb bs = .ok (i, rest)) :
    ∃ (f : Filter) (raw : List Byte), i = f.instr raw ∧ raw.length = prb ∧ 1 + prb ≤ bs.length := by
  cases bs with
  | nil => cases h
  | cons ft bs =>
    rw [decodeScan] at h
    split at h
    · cases h
    · next f hf =>
      split at h
      · cases h
      · next hlen =>
        obtain ⟨rfl, -⟩ := Prod.mk.inj (Except.ok.inj h)
        exact ⟨f, _, rfl, by rw [List.length_take]; omega, by rw [List.length_cons]; omega⟩

theorem pfeFetch_ok {p : Pfe} {i : Instr} (h : p.fetch = .ok i) :
    ∃ (f : Filter) (raw : List Byte), i = f.instr raw ∧ raw.length = p.prb.toNat ∧
      p.sh.inPos.toNat + (1 + p.prb.toNat) ≤ p.sh.inLen.toNat := by
  unfold Pfe.fetch at h
  split at h
  · next i' rest hd =>
    obtain rfl := Except.ok.inj h
    obtain ⟨f, raw, hi, hraw, hlen⟩ := decodeScan_ok hd
    rw [window_length] at hlen
    exact ⟨f, raw, hi, hraw, by omega⟩
  · cases h
  · cases h

theorem pfeFetch_error {p : Pfe} {e : ErrCode} (h : p.fetch = .error e) : e ≠ .none := by
  unfold Pfe.fetch at h
  split at h
  · cases h
  · obtain rfl := Except.error.inj h; decide
  · obtain rfl := Except.error.inj h; decide

/-- What PFE's turn can do (40_png_filter.md R155): a fault of the fetch, or the scanline step on a complete record. -/
inductive PfeTurn (cfg : Config) (p : Pfe) : Except Fault Pfe → Prop
  | fetchFault (e : ErrCode) (he : e ≠ .none) : PfeTurn cfg p (.ok { p with sh := p.sh.raise e p.sh.inPos })
  | scanline (f : Filter) (raw : List Byte) (hraw : raw.length = p.prb.toNat)
      (hin : p.sh.inPos.toNat + (1 + p.prb.toNat) ≤ p.sh.inLen.toNat) : PfeTurn cfg p (p.scanline cfg f raw)

theorem pfeStep_cases (s : State) :
    ∃ r, pfeStep s = settle r (fun p => { s with pfe := p }) ∧ PfeTurn s.cfg s.pfe r := by
  cases h : s.pfe.fetch with
  | error e => exact ⟨_, by rw [pfeStep_faults s e h]; rfl, .fetchFault e (pfeFetch_error h)⟩
  | ok i =>
    obtain ⟨f, raw, rfl, hraw, hin⟩ := pfeFetch_ok h
    exact ⟨_, by rw [pfeStep_runs s _ h, exec_filter]; rfl, .scanline f raw hraw hin⟩

/-- In a good run PFE's turn goes on, to a good unit. -/
theorem pfeTurn_good {cfg : Config} (hwf : cfg.wf = true) {p : Pfe} (h : p.Good cfg) (hb : p.sh.state = .busy)
    {r : Except Fault Pfe} (hr : PfeTurn cfg p r) : ∃ q, r = .ok q ∧ q.Good cfg := by
  cases hr with
  | fetchFault e he =>
    exact ⟨_, rfl, { h with
      shell := shellGood_raise h.shell he _
      noShort := ⟨rfl, rfl⟩
      running := by simp }⟩
  | scanline f raw hraw hin => exact scanline_good hwf h hb f hraw hin

/-- Masked stores change `OUT` and nothing else. -/
theorem pokes_frame (maxOut : Nat) (ks : List Poke) : ∀ {sh sh' : Shell}, sh.pokes maxOut ks = .ok sh' →
    sh' = { sh with outBuf := sh'.outBuf } := by
  induction ks with
  | nil => intro sh sh' h; obtain rfl := Except.ok.inj h; rfl
  | cons k ks ih =>
    intro sh sh' h
    rw [Shell.pokes] at h
    split at h
    · next sh1 h1 =>
      obtain ⟨-, rfl⟩ := (storeOut_eq_ok _ _ _ _ _ _).mp h1
      have hrest := ih h
      exact hrest
    · cases h

/-- Placing a scanline changes `OUT` and nothing else. -/
theorem place_frame {cfg : Config} {p : Pfe} {g : PassGeom} {sh : Shell} (h : p.place cfg g = .ok sh) :
    sh = { p.sh with outBuf := sh.outBuf } := by
  unfold Pfe.place at h
  split at h
  · exact pokes_frame _ _ h
  · obtain ⟨-, rfl⟩ := (storeOut_eq_ok _ _ _ _ _ _).mp h
    rfl

/-- What follows a scanline keeps STATE or ends the run. -/
theorem endScanline_state (p : Pfe) : p.endScanline.sh.state = p.sh.state ∨ p.endScanline.sh.state = .done := by
  rw [endScanline_eq]
  split
  · cases hn : (nextRow p).passes[(nextRow p).nextPass (nextRow p).pass.toNat]? with
    | some g => rw [endPass_some _ _ g rfl hn]; exact .inl rfl
    | none => rw [endPass_none _ _ rfl hn]; exact .inr rfl
  · exact .inl rfl

/-- No turn of PFE ends in IDLE. -/
theorem pfeTurn_not_idle {cfg : Config} {p q : Pfe} (hb : p.sh.state ≠ .idle) (hr : PfeTurn cfg p (.ok q)) :
    q.sh.state ≠ .idle := by
  generalize hq : Except.ok q = r at hr
  cases hr with
  | fetchFault e he => obtain rfl := Except.ok.inj hq; simp
  | scanline f raw hraw hin =>
    obtain ⟨-, -, g, sh, -, hp, rfl⟩ := (scanline_eq_ok cfg f raw p q).mp hq.symm
    have hs : sh.state = p.sh.state := by rw [place_frame hp, reconstruct_frame]
    rcases endScanline_state { p.reconstruct f 0 raw with sh := sh } with h | h
    · rw [h, hs]; exact hb
    · simp [h]

/-! ### RLD's turn (43_bmp_rle.md R263) -/

/-- What RLD's turn can do: `E_TRUNC`, a write of pixels, a move, the end. The bounds are those of the commands' lengths: an
even number of bytes, at most 255 pixels for each two (30_encoding.md R103 to R108). -/
inductive RldTurn (cfg : Config) (r : Rld) : Except Fault Rld → Prop
  | fetchFault : RldTurn cfg r (.ok { r with sh := r.sh.raise .trunc r.sh.inPos })
  | run (px : List Byte) (len : Nat) (hin : r.sh.inPos.toNat + len ≤ r.sh.inLen.toNat) (heven : len % 2 = 0)
      (hpx : 2 * px.length ≤ 255 * len) : RldTurn cfg r (r.putRun cfg px len)
  | eol (hin : r.sh.inPos.toNat + 2 ≤ r.sh.inLen.toNat) : RldTurn cfg r (.ok r.eol)
  | eob (hin : r.sh.inPos.toNat + 2 ≤ r.sh.inLen.toNat) : RldTurn cfg r (.ok r.eob)
  | delta (dx dy : Byte) (hin : r.sh.inPos.toNat + 4 ≤ r.sh.inLen.toNat) : RldTurn cfg r (.ok (r.delta dx dy))

/-- The commands a decoder answers, each with the bytes it needs (30_encoding.md R103). -/
theorem decodeRle_ok {m : Bool} {bs rest : List Byte} {i : Instr} (h : decodeRle m bs = .ok (i, rest)) :
    2 ≤ bs.length ∧
      ((∃ n v, i = .rle8Run n v) ∨ (∃ n a b, i = .rle4Run n a b) ∨ i = .rleEol ∨ i = .rleEob ∨
        (∃ dx dy, i = .rleDelta dx dy ∧ 4 ≤ bs.length) ∨
        (∃ n d, i = .rle8Abs n d ∧ absLength (absDataBytes false n.toNat) ≤ bs.length) ∨
        ∃ n d, i = .rle4Abs n d ∧ absLength (absDataBytes true n.toNat) ≤ bs.length) := by
  match bs with
  | [] => cases h
  | [_] => cases h
  | b0 :: b1 :: tl =>
    refine ⟨by simp, ?_⟩
    simp only [decodeRle] at h
    split_ifs at h with h0 hm h1 h2 h3 hlen hm'
    · obtain ⟨rfl, -⟩ := Prod.mk.inj (Except.ok.inj h); exact .inr (.inl ⟨_, _, _, rfl⟩)
    · obtain ⟨rfl, -⟩ := Prod.mk.inj (Except.ok.inj h); exact .inl ⟨_, _, rfl⟩
    · obtain ⟨rfl, -⟩ := Prod.mk.inj (Except.ok.inj h); exact .inr (.inr (.inl rfl))
    · obtain ⟨rfl, -⟩ := Prod.mk.inj (Except.ok.inj h); exact .inr (.inr (.inr (.inl rfl)))
    · split at h
      · obtain ⟨rfl, -⟩ := Prod.mk.inj (Except.ok.inj h)
        exact .inr (.inr (.inr (.inr (.inl ⟨_, _, rfl, by simp⟩))))
      · cases h
    · obtain ⟨rfl, -⟩ := Prod.mk.inj (Except.ok.inj h)
      refine .inr (.inr (.inr (.inr (.inr (.inr ⟨_, _, rfl, ?_⟩)))))
      rw [absLength, List.length_cons, List.length_cons]
      rw [hm'] at hlen
      omega
    · obtain ⟨rfl, -⟩ := Prod.mk.inj (Except.ok.inj h)
      refine .inr (.inr (.inr (.inr (.inr (.inl ⟨_, _, rfl, ?_⟩)))))
      rw [absLength, List.length_cons, List.length_cons]
      rw [Bool.not_eq_true] at hm'
      rw [hm'] at hlen
      omega

theorem absLength_even (nb : Nat) : absLength nb % 2 = 0 := by
  unfold absLength padBytes
  omega

theorem abs4Pixels_length_le (n : Nat) (d : List Byte) : (abs4Pixels n d).length ≤ n := by
  rw [abs4Pixels, List.length_take]
  omega

theorem rldStep_cases (s : State) :
    ∃ q, rldStep s = settle q (fun r => { s with rld := r }) ∧ RldTurn s.cfg s.rld q := by
  cases h : s.rld.fetch with
  | error e =>
    obtain rfl : e = .trunc := by
      unfold Rld.fetch at h
      split at h
      · cases h
      · exact (Except.error.inj h).symm
    exact ⟨_, by rw [rldStep_faults s _ h]; rfl, .fetchFault⟩
  | ok i =>
    rw [rldStep_runs s i h]
    unfold Rld.fetch at h
    split at h
    · next i' rest hd =>
      obtain rfl := Except.ok.inj h
      obtain ⟨h2, hi⟩ := decodeRle_ok hd
      rw [window_length] at h2 hi
      rcases hi with ⟨n, v, rfl⟩ | ⟨n, a, b, rfl⟩ | rfl | rfl | ⟨dx, dy, rfl, h4⟩ | ⟨n, d, rfl, hl⟩ | ⟨n, d, rfl, hl⟩
      · exact ⟨_, rfl, .run _ 2 (by omega) rfl (by have := n.isLt; rw [List.length_replicate]; omega)⟩
      · exact ⟨_, rfl, .run _ 2 (by omega) rfl (by have := n.isLt; rw [alternating_length]; omega)⟩
      · exact ⟨_, rfl, .eol (by omega)⟩
      · exact ⟨_, rfl, .eob (by omega)⟩
      · exact ⟨_, rfl, .delta dx dy (by omega)⟩
      · refine ⟨_, rfl, .run _ _ (by omega) (absLength_even _) ?_⟩
        rw [List.length_take, absDataBytes, if_neg Bool.false_ne_true, absLength]
        omega
      · refine ⟨_, rfl, .run _ _ (by omega) (absLength_even _) ?_⟩
        have hp := abs4Pixels_length_le n.toNat d
        rw [absDataBytes, if_pos rfl, absLength, ceilDiv]
        omega
    · cases h

/-! ### A good RLD stays good -/

theorem rldLegal_iff (cfg : Config) (r : Rld) :
    r.legal cfg = true ↔ 1 ≤ r.width ∧ r.width ≤ cfg.maxW ∧ 1 ≤ r.height ∧ r.height ≤ cfg.maxH ∧
      r.sh.inLen.toNat ≤ cfg.maxIn ∧ r.width * r.height ≤ cfg.maxOut := by
  simp only [Rld.legal, Bool.and_eq_true, decide_eq_true_eq]
  tauto

theorem canvasRow_lt {r : Rld} (h : r.y.toNat < r.height) : r.canvasRow < r.height := by
  unfold Rld.canvasRow
  split <;> omega

/-- Pixels inside the canvas row are stored inside the canvas (20_memory.md R80). -/
theorem pixelCell_fits {r : Rld} {n : Nat} (h : r.inside n = true) : r.pixelCell + n ≤ r.width * r.height := by
  simp only [Rld.inside, Bool.and_eq_true, decide_eq_true_eq] at h
  calc r.pixelCell + n = r.canvasRow * r.width + (r.x.toNat + n) := by rw [Rld.pixelCell, Nat.add_assoc]
    _ ≤ r.canvasRow * r.width + r.width := by omega
    _ = r.width * (r.canvasRow + 1) := by ring
    _ ≤ r.width * r.height := Nat.mul_le_mul_left _ (canvasRow_lt h.1)

/-- A move of the cursor and the position by a command keeps the run good (43_bmp_rle.md R273). -/
theorem rldGood_move {cfg : Config} {r : Rld} (h : r.Good cfg) (hb : r.sh.state = .busy) {len dx dy : Nat}
    (hin : r.sh.inPos.toNat + len ≤ r.sh.inLen.toNat) (heven : len % 2 = 0) (hx : 2 * dx ≤ 255 * len)
    (hy : 2 * dy ≤ 255 * len) {sh : Shell} (hs : sh.Good cfg .rld) (hsh : sh = { r.sh with outBuf := sh.outBuf })
    {x : Word} (hx' : x = 0 ∨ x = word (r.x.toNat + dx)) :
    ({ r with sh := sh.advance len, x := x, y := word (r.y.toNat + dy) } : Rld).Good cfg := by
  have hpos : (sh.advance len).inPos.toNat = r.sh.inPos.toNat + len := by
    rw [hsh]; exact advance_inPos_toNat hin
  have hshell : (sh.advance len).Good cfg .rld := shellGood_advance hs (by rw [hsh]; exact hin)
  rw [hsh] at hshell hpos ⊢
  obtain ⟨hl, he, hcol, hline⟩ := h.running hb
  exact {
    shell := hshell
    noShort := h.noShort
    running := fun _ =>
      { legal := hl
        even := by
          rw [hpos]
          omega
        column := by
          rw [hpos]
          rcases hx' with rfl | rfl
          · simp
          · have := Nat.mod_le (r.x.toNat + dx) (2 ^ 32)
            rw [word_toNat]
            omega
        line := by
          rw [hpos]
          have := Nat.mod_le (r.y.toNat + dy) (2 ^ 32)
          rw [word_toNat]
          omega } }

/-- In a good run RLD's turn goes on, to a good unit. -/
theorem rldTurn_good {cfg : Config} {r : Rld} (h : r.Good cfg) (hb : r.sh.state = .busy) {a : Except Fault Rld}
    (ha : RldTurn cfg r a) : ∃ q, a = .ok q ∧ q.Good cfg := by
  cases ha with
  | fetchFault =>
    exact ⟨_, rfl, { h with
      shell := shellGood_raise h.shell (by decide) _
      noShort := ⟨rfl, rfl⟩
      running := by simp }⟩
  | run px len hin heven hpx =>
    obtain ⟨-, -, -, -, -, hsize⟩ := (rldLegal_iff cfg r).mp (h.running hb).legal
    by_cases hi : r.inside px.length = true
    · have hfit := (pixelCell_fits hi).trans hsize
      have hgood := rldGood_move (dy := 0) h hb hin heven hpx (Nat.zero_le _)
        (shellGood_store h.shell _ _ hfit) rfl (.inr rfl)
      rw [Nat.add_zero, word_of_toNat] at hgood
      exact ⟨_, (putRun_eq_ok ..).mpr (.inr ⟨hi, hfit, rfl⟩), hgood⟩
    · exact ⟨_, (putRun_eq_ok ..).mpr (.inl ⟨by simpa using hi, rfl⟩), { h with
        shell := shellGood_raise h.shell (by decide) _
        noShort := ⟨rfl, rfl⟩
        running := by simp }⟩
  | eol hin =>
    exact ⟨_, rfl, rldGood_move (dx := 0) (dy := 1) h hb hin rfl (by omega) (by omega) h.shell rfl (.inl rfl)⟩
  | eob hin =>
    exact ⟨_, rfl, { h with
      shell := shellGood_finish (shellGood_advance h.shell hin) hb _
      noShort := ⟨rfl, rfl⟩
      running := by simp }⟩
  | delta dx dy hin =>
    have hdx := dx.isLt
    have hdy := dy.isLt
    exact ⟨_, rfl, rldGood_move h hb hin rfl (by omega) (by omega) h.shell rfl (.inr rfl)⟩

/-- No turn of RLD ends in IDLE. -/
theorem rldTurn_not_idle {cfg : Config} {r q : Rld} (hb : r.sh.state ≠ .idle) (hr : RldTurn cfg r (.ok q)) :
    q.sh.state ≠ .idle := by
  generalize hq : Except.ok q = a at hr
  cases hr with
  | run px len hin heven hpx =>
    rcases (putRun_eq_ok cfg px len r q).mp hq.symm with ⟨-, rfl⟩ | ⟨-, -, rfl⟩
    · simp
    · exact hb
  | fetchFault => obtain rfl := Except.ok.inj hq; simp
  | eol hin => obtain rfl := Except.ok.inj hq; exact hb
  | eob hin => obtain rfl := Except.ok.inj hq; simp
  | delta dx dy hin => obtain rfl := Except.ok.inj hq; exact hb

/-! ### START of RLD -/

theorem rldGood_init {cfg : Config} {r : Rld} (h : r.Good cfg) (hi : r.sh.state = .idle) (hl : r.legal cfg = true) :
    r.init.Good cfg := by
  obtain ⟨-, -, -, -, hin, hsize⟩ := (rldLegal_iff cfg r).mp hl
  have hcanvas := shellGood_store h.shell 0 (List.replicate (r.width * r.height) 0)
    (by rw [List.length_replicate]; omega)
  exact { h with
    shell := shellGood_run_starts hcanvas hi hin _
    running := fun _ => ⟨hl, rfl, Nat.zero_le _, Nat.zero_le _⟩ }

theorem rldGood_start {cfg : Config} {r : Rld} (h : r.Good cfg) : (r.start cfg).Good cfg := by
  unfold Rld.start
  dsimp only
  split_ifs with hi hl
  · have hclear : Rld.Good cfg { r with sh := r.sh.startClear } :=
      { shell := shellGood_startClear h.shell hi
        noShort := ⟨rfl, rfl⟩
        running := by simp [hi] }
    exact rldGood_init hclear hi hl
  · exact {
      shell := shellGood_raise (shellGood_startClear h.shell hi) (by decide) 0
      noShort := ⟨rfl, rfl⟩
      running := by simp }
  · exact h

/-! ### Bits of numbers and of the stream -/

theorem lsbBits_add (a : Nat) : ∀ b v : Nat, lsbBits (a + b) v = lsbBits a v ++ lsbBits b (v / 2 ^ a) := by
  induction a with
  | zero => intro b v; simp [lsbBits]
  | succ a ih =>
    intro b v
    rw [show a + 1 + b = (a + b) + 1 by omega, lsbBits, lsbBits, ih, Nat.div_div_eq_div_mul, pow_succ']
    rfl

theorem lsbBits_mod (a : Nat) : ∀ v : Nat, lsbBits a (v % 2 ^ a) = lsbBits a v := by
  intro v
  have h := lsbBits_lsbValue (lsbBits a v)
  rwa [lsbBits_length, lsbValue_lsbBits] at h

theorem msbBits_add (a b v : Nat) : msbBits (a + b) v = msbBits a (v / 2 ^ b) ++ msbBits b v := by
  rw [msbBits, Nat.add_comm, lsbBits_add, List.reverse_append]
  rfl

theorem msbBits_mod (a v : Nat) : msbBits a (v % 2 ^ a) = msbBits a v := by rw [msbBits, msbBits, lsbBits_mod]

/-- Whole bytes dropped from a stream of eight bits a byte. -/
theorem drop_flatMap_eight {α : Type} (f : α → List Bool) (hf : ∀ a, (f a).length = 8) : ∀ (k : Nat) (bs : List α),
    (bs.flatMap f).drop (8 * k) = (bs.drop k).flatMap f := by
  intro k
  induction k with
  | zero => intro bs; rfl
  | succ k ih =>
    intro bs
    cases bs with
    | nil => simp
    | cons b bs =>
      rw [List.flatMap_cons, List.drop_succ_cons, ← ih bs, show 8 * (k + 1) = (f b).length + 8 * k by rw [hf]; omega,
        List.drop_append]
      simp

/-- The bits of a byte in stream order (30_encoding.md R109, R110). -/
def byteBits (tiff : Bool) (b : Byte) : List Bool := if tiff then msbBits 8 b.toNat else lsbBits 8 b.toNat

theorem byteBits_length (tiff : Bool) (b : Byte) : (byteBits tiff b).length = 8 := by
  unfold byteBits
  split <;> simp

theorem stream_eq (l : Lzd) :
    l.stream = (readBlock (.input .lzd) l.sh.inGen l.sh.inBuf 0 l.sh.inLen.toNat).flatMap (byteBits l.tiff) := rfl

/-- The eight stream bits of a byte inside the input. -/
theorem stream_byte (l : Lzd) {k : Nat} (hk : k < l.sh.inLen.toNat) :
    (l.stream.drop (8 * k)).take 8 = byteBits l.tiff (l.sh.inByte .lzd k) := by
  rw [stream_eq, drop_flatMap_eight _ (byteBits_length _)]
  have hget := readBlock_getElem? (.input .lzd) l.sh.inGen l.sh.inBuf l.sh.inLen.toNat 0 k
  rw [if_pos hk, Nat.zero_add] at hget
  obtain ⟨hlt, hval⟩ := List.getElem?_eq_some_iff.mp hget
  rw [List.drop_eq_getElem_cons hlt, hval, List.flatMap_cons]
  exact List.take_left' (byteBits_length _ _)

/-! ### The bit buffer (41_lzw.md R183, R184) -/

/-- The bit buffer holds the stream bits before the cursor that no code has used, and the cursor is inside the input. -/
structure Buffered (l : Lzd) : Prop where
  cursor : l.sh.inPos.toNat ≤ l.sh.inLen.toNat
  accumulator : l.datum.toNat < 2 ^ l.nbits.toNat
  behind : l.nbits.toNat ≤ 8 * l.sh.inPos.toNat
  held : l.held = (l.stream.drop l.bitPos).take l.nbits.toNat

/-- The accumulator after a byte is loaded, as a number. -/
theorem load_datum_toNat {l : Lzd} (ha : l.datum.toNat < 2 ^ l.nbits.toNat) (hn : l.nbits.toNat ≤ 24) :
    l.load.datum.toNat =
      if l.tiff then 2 ^ 8 * l.datum.toNat + (l.sh.inByte .lzd l.sh.inPos.toNat).toNat
      else 2 ^ l.nbits.toNat * (l.sh.inByte .lzd l.sh.inPos.toNat).toNat + l.datum.toNat := by
  have hb := (l.sh.inByte .lzd l.sh.inPos.toNat).isLt
  have hpow : 2 ^ l.nbits.toNat ≤ 2 ^ 24 := Nat.pow_le_pow_right (by decide) hn
  have hbyte : ((l.sh.inByte .lzd l.sh.inPos.toNat).setWidth 32).toNat = (l.sh.inByte .lzd l.sh.inPos.toNat).toNat := by
    rw [BitVec.toNat_setWidth]; omega
  unfold Lzd.load
  dsimp only
  split
  · rw [BitVec.toNat_or, BitVec.toNat_shiftLeft, hbyte, Nat.shiftLeft_eq, Nat.mul_comm, Nat.mod_eq_of_lt (by omega),
      Nat.two_pow_add_eq_or_of_lt hb]
  · have hlt : 2 ^ l.nbits.toNat * (l.sh.inByte .lzd l.sh.inPos.toNat).toNat < 2 ^ 32 := by
      calc _ ≤ 2 ^ 24 * (l.sh.inByte .lzd l.sh.inPos.toNat).toNat := Nat.mul_le_mul_right _ hpow
        _ < 2 ^ 32 := by omega
    rw [BitVec.toNat_or, BitVec.toNat_shiftLeft, hbyte, Nat.shiftLeft_eq, Nat.mul_comm _ (2 ^ _), Nat.mod_eq_of_lt hlt,
      Nat.two_pow_add_eq_or_of_lt ha, Nat.or_comm]

theorem load_nbits_toNat {l : Lzd} (hn : l.nbits.toNat ≤ 24) : l.load.nbits.toNat = l.nbits.toNat + 8 := by
  rw [load_nbits, BitVec.toNat_add]
  exact Nat.mod_eq_of_lt (by simp; omega)

/-- A loaded byte's bits join those held, behind them. -/
theorem load_held {l : Lzd} (ha : l.datum.toNat < 2 ^ l.nbits.toNat) (hn : l.nbits.toNat ≤ 24) :
    l.load.held = l.held ++ byteBits l.tiff (l.sh.inByte .lzd l.sh.inPos.toNat) := by
  have hb := (l.sh.inByte .lzd l.sh.inPos.toNat).isLt
  have ht : l.load.tiff = l.tiff := rfl
  unfold Lzd.held byteBits
  rw [load_nbits_toNat hn, load_datum_toNat ha hn, ht]
  split
  · rw [msbBits_add, Nat.mul_add_div (by decide), Nat.div_eq_of_lt hb, Nat.add_zero, ← msbBits_mod 8 (_ + _),
      Nat.mul_add_mod, Nat.mod_eq_of_lt hb]
  · rw [lsbBits_add, Nat.mul_add_div (by positivity), Nat.div_eq_of_lt ha, Nat.add_zero, ← lsbBits_mod _ (_ + _),
      Nat.mul_add_mod, Nat.mod_eq_of_lt ha]

theorem load_keeps_buffered {l : Lzd} (h : Buffered l) (hn : l.nbits.toNat ≤ 24)
    (hin : l.sh.inPos.toNat < l.sh.inLen.toNat) : Buffered l.load := by
  have hpos : l.load.sh.inPos.toNat = l.sh.inPos.toNat + 1 := advance_inPos_toNat hin
  have hnb := load_nbits_toNat hn
  have hbehind := h.behind
  have hbit : l.load.bitPos = l.bitPos := by
    unfold Lzd.bitPos
    rw [hpos, hnb]
    omega
  have hend : l.bitPos + l.nbits.toNat = 8 * l.sh.inPos.toNat := by
    unfold Lzd.bitPos
    omega
  refine ⟨hpos.trans_le hin, ?_, by omega, ?_⟩
  · have hb := (l.sh.inByte .lzd l.sh.inPos.toNat).isLt
    have ha := h.accumulator
    rw [load_datum_toNat ha hn, hnb, pow_add]
    split
    · omega
    · calc _ < 2 ^ l.nbits.toNat * (l.sh.inByte .lzd l.sh.inPos.toNat).toNat + 2 ^ l.nbits.toNat := by omega
        _ = 2 ^ l.nbits.toNat * ((l.sh.inByte .lzd l.sh.inPos.toNat).toNat + 1) := by ring
        _ ≤ 2 ^ l.nbits.toNat * 2 ^ 8 := Nat.mul_le_mul_left _ hb
  · rw [load_held h.accumulator hn, h.held, hnb, hbit, show l.load.stream = l.stream from rfl, List.take_add,
      List.drop_drop, hend, stream_byte l hin]

/-- The loading loop of a legal code size (41_lzw.md R183 to R185): it loads only what the code needs, two bytes are enough,
and it gives up only at the end of the input. -/
theorem fill_keeps_buffered (n : Nat) : ∀ {l : Lzd}, Buffered l → l.codeSize.toNat ≤ 12 →
    l.nbits.toNat ≤ l.codeSize.toNat + 7 →
    Buffered (l.fill n).1 ∧ (l.fill n).1.nbits.toNat ≤ l.codeSize.toNat + 7 ∧
      (l.codeSize.toNat ≤ l.nbits.toNat + 8 * n → (l.fill n).2 = true → l.codeSize.toNat ≤ (l.fill n).1.nbits.toNat) ∧
      ((l.fill n).2 = false → l.sh.inLen.toNat ≤ (l.fill n).1.sh.inPos.toNat) := by
  induction n with
  | zero =>
    intro l h hc hn
    exact ⟨h, hn, fun h' _ => h', by simp [Lzd.fill]⟩
  | succ n ih =>
    intro l h hc hn
    rw [Lzd.fill]
    split
    · split
      · next hend => exact ⟨h, hn, fun _ hf => (Bool.false_ne_true hf).elim, fun _ => hend⟩
      · have hnb := load_nbits_toNat (l := l) (by omega)
        obtain ⟨h1, h2, h3, h4⟩ := ih (l := l.load) (load_keeps_buffered h (by omega) (by omega)) hc
          (by rw [hnb, load_codeSize]; omega)
        exact ⟨h1, h2, fun hk => h3 (by rw [hnb, load_codeSize]; omega), h4⟩
    · next hge => exact ⟨h, hn, fun _ _ => Nat.not_lt.mp hge, fun hf => (Bool.false_ne_true hf.symm).elim⟩

theorem take_nbits_toNat (l : Lzd) : l.take.2.nbits.toNat = l.nbits.toNat - l.codeSize.toNat := by
  have := l.nbits.isLt
  unfold Lzd.take
  split <;> (rw [BitVec.toNat_ofNat]; omega)

theorem take_datum_toNat (l : Lzd) :
    l.take.2.datum.toNat =
      if l.tiff then l.datum.toNat % 2 ^ (l.nbits.toNat - l.codeSize.toNat)
      else l.datum.toNat / 2 ^ l.codeSize.toNat := by
  have hd := l.datum.isLt
  unfold Lzd.take
  split
  · exact word_toNat_of_lt ((Nat.mod_le _ _).trans_lt hd)
  · rw [← Nat.shiftRight_eq_div_pow]
    exact word_toNat_of_lt ((Nat.shiftRight_le _ _).trans_lt hd)

/-- A code taken leaves the later bits (R183, R184). -/
theorem take_held {l : Lzd} (hc : l.codeSize.toNat ≤ l.nbits.toNat) : l.take.2.held = l.held.drop l.codeSize.toNat := by
  have ht : l.take.2.tiff = l.tiff := by rw [take_frame]; rfl
  have hsum : l.nbits.toNat = l.codeSize.toNat + (l.nbits.toNat - l.codeSize.toNat) := by omega
  unfold Lzd.held
  rw [take_nbits_toNat, take_datum_toNat, ht]
  split
  · rw [msbBits_mod]
    conv_rhs => rw [hsum, msbBits_add]
    rw [List.drop_left' (msbBits_length _ _)]
  · conv_rhs => rw [hsum, lsbBits_add]
    rw [List.drop_left' (lsbBits_length _ _)]

theorem take_keeps_buffered {l : Lzd} (h : Buffered l) (hc : l.codeSize.toNat ≤ l.nbits.toNat) : Buffered l.take.2 := by
  have hsh : l.take.2.sh = l.sh := by rw [take_frame]
  have hbehind := h.behind
  have hstream : l.take.2.stream = l.stream := by rw [take_frame]; rfl
  have hbit : l.take.2.bitPos = l.bitPos + l.codeSize.toNat := by
    unfold Lzd.bitPos
    rw [take_nbits_toNat, hsh]
    omega
  refine ⟨by rw [hsh]; exact h.cursor, ?_, by rw [hsh, take_nbits_toNat]; omega, ?_⟩
  · rw [take_nbits_toNat, take_datum_toNat]
    split
    · exact Nat.mod_lt _ (by positivity)
    · rw [Nat.div_lt_iff_lt_mul (by positivity), ← pow_add, Nat.sub_add_cancel hc]
      exact h.accumulator
  · rw [take_held hc, h.held, hstream, hbit, take_nbits_toNat, List.drop_take, List.drop_drop]

/-! ### LZD's turn (41_lzw.md R185 to R187) -/

/-- What an element of LZD does, with what its class says of the registers (30_encoding.md R111). -/
inductive LzdElement (cfg : Config) (l : Lzd) : Except Fault Lzd → Prop
  | clear : LzdElement cfg l (.ok l.clearTable)
  | eoi : LzdElement cfg l (.ok (l.finish false))
  | lit (c : BitVec 12) (hc : c.toNat < l.cx.clear) : LzdElement cfg l (l.lit cfg c)
  | ref (c : BitVec 12) (hv : l.oldValid = true) (hc : l.codeOk c.toNat) : LzdElement cfg l (l.ref cfg c)
  | kwk (hv : l.oldValid = true) (ha : l.avail.toNat < 4096) : LzdElement cfg l (l.kwk cfg)
  | illegal : LzdElement cfg l (.ok { l with sh := l.sh.raise .lzwCode l.sh.inPos })

theorem exec_classify (s : State) (c : BitVec 12) :
    ∃ r, exec (classify s.lzd.cx c) s = settle r (fun l => { s with lzd := l }) ∧ LzdElement s.cfg s.lzd r := by
  unfold classify
  split_ifs with h1 h2 hv href hkwk hlit
  · exact ⟨_, rfl, .clear⟩
  · exact ⟨_, rfl, .eoi⟩
  · refine ⟨_, rfl, .ref c hv ?_⟩
    simpa [LzwCx.isRef, Lzd.codeOk] using href
  · refine ⟨_, rfl, .kwk hv ?_⟩
    have hc : c.toNat = s.lzd.avail.toNat := hkwk
    have := c.isLt
    omega
  · exact ⟨_, rfl, .illegal⟩
  · exact ⟨_, rfl, .lit c hlit⟩
  · exact ⟨_, rfl, .illegal⟩

/-- What LZD's turn can do: the end at `OUT_MAX`, the end of the input, or the element of the code fetched. -/
inductive LzdTurn (cfg : Config) (l : Lzd) : Except Fault Lzd → Prop
  | full : LzdTurn cfg l (.ok (l.finish false))
  | exhausted (hout : l.sh.outLen.toNat < l.outMax) (hf : (l.fill 2).2 = false) :
      LzdTurn cfg l (.ok ((l.fill 2).1.finish true))
  | element (hf : (l.fill 2).2 = true) (r : Except Fault Lzd) (hr : LzdElement cfg (l.fill 2).1.take.2 r) :
      LzdTurn cfg l r

theorem lzdStep_cases (s : State) :
    ∃ r, lzdStep s = settle r (fun l => { s with lzd := l }) ∧ LzdTurn s.cfg s.lzd r := by
  by_cases hout : s.lzd.outMax ≤ s.lzd.sh.outLen.toNat
  · exact ⟨_, by rw [lzdStep_full s hout]; rfl, .full⟩
  · have hout := Nat.not_le.mp hout
    cases hf : (s.lzd.fill 2).2 with
    | false =>
      exact ⟨_, by rw [lzdStep_exhausted s (s.lzd.fill 2).1 hout (Prod.ext rfl hf)]; rfl, .exhausted hout hf⟩
    | true =>
      obtain ⟨r, he, hr⟩ := exec_classify { s with lzd := (s.lzd.fill 2).1.take.2 } (s.lzd.fill 2).1.take.1
      exact ⟨r, by rw [lzdStep_runs s (s.lzd.fill 2).1 hout (Prod.ext rfl hf)]; exact he, .element hf r hr⟩

/-! ### The strings of the table (41_lzw.md R193, R196) -/

theorem cxOk_iff (l : Lzd) :
    l.cx.ok = true ↔ 2 ≤ l.depth ∧ l.depth ≤ 8 ∧ l.depth < l.codeSize.toNat ∧ l.codeSize.toNat ≤ 12 ∧
      l.cx.firstFree ≤ l.avail.toNat ∧ l.avail.toNat ≤ 4096 := by
  simp only [LzwCx.ok, Bool.and_eq_true, decide_eq_true_eq, and_assoc]
  exact Iff.rfl

theorem lzdLegal_iff (cfg : Config) (l : Lzd) :
    l.legal cfg = true ↔
      ((l.tiff = false ∧ 2 ≤ l.depth ∧ l.depth ≤ 8) ∨ (l.tiff = true ∧ l.depth = 8 ∧ cfg.hasTiffLzw = true)) ∧
      l.sh.inLen.toNat ≤ cfg.maxIn ∧ l.outMax ≤ cfg.maxOut := by
  simp only [Lzd.legal, Bool.and_eq_true, Bool.or_eq_true, Bool.not_eq_true', decide_eq_true_eq]
  tauto

/-- Strings depend on the depth and the table only. -/
theorem expand_congr {l m : Lzd} (hd : l.cx.n = m.cx.n) (ha : l.avail = m.avail)
    (hp : ∀ k, l.prefixAt k = m.prefixAt k) (hs : ∀ k, l.suffixAt k = m.suffixAt k) (k : Nat) :
    l.expand k = m.expand k := by
  ext str
  exact ⟨expandIn_congr l m hd (ha ▸ le_refl _) (fun k _ => hp k) (fun k _ => hs k) _ _ _,
    expandIn_congr m l hd.symm (ha ▸ le_refl _) (fun k _ => (hp k).symm) (fun k _ => (hs k).symm) _ _ _⟩

/-- In a tree of codes every code below the fuel that can have a string has one. -/
theorem expandIn_defined {l : Lzd}
    (hchain : ∀ k, l.cx.firstFree ≤ k → k < l.cx.avail → (l.prefixAt k).toNat < k ∧ l.codeOk (l.prefixAt k).toNat) :
    ∀ n k : Nat, k < n → l.codeOk k → ∃ str, l.expandIn n k = some str := by
  intro n
  induction n with
  | zero => intro k hk _; omega
  | succ n ih =>
    intro k hk hok
    rw [Lzd.expandIn]
    split
    · exact ⟨_, rfl⟩
    · next hlit =>
      have hrange := hok.resolve_left hlit
      obtain ⟨hlt, hpre⟩ := hchain k hrange.1 hrange.2
      obtain ⟨str, hstr⟩ := ih _ (by omega) hpre
      rw [if_pos hrange, hstr]
      exact ⟨_, rfl⟩

/-- Every code with a string has one in a run. -/
theorem expand_defined {cfg : Config} {l : Lzd} (h : l.Running cfg) (c : BitVec 12) (hc : l.codeOk c.toNat) :
    ∃ f str, l.expand c.toNat = some (f :: str) := by
  obtain ⟨str, hstr⟩ := expandIn_defined h.chain 4096 c.toNat c.isLt hc
  cases str with
  | nil => exact absurd hstr (expandIn_ne_nil l _ _)
  | cons f str => exact ⟨f, str, hstr⟩

/-! ### What keeps a run of LZD -/

theorem running_buffered {cfg : Config} {l : Lzd} (h : l.Running cfg) (hs : l.sh.inPos.toNat ≤ l.sh.inLen.toNat) :
    Buffered l := ⟨hs, h.accumulator, h.loaded.1, h.loaded.2⟩

/-- The table's part of a run does not see `IEN`, the bit buffer, the cursor and `OUT`. -/
theorem lzdRunning_of_buffered {cfg : Config} {l m : Lzd} (h : l.Running cfg)
    (hm : m = { l with
      datum := m.datum
      nbits := m.nbits
      sh := { l.sh with ie := m.sh.ie, inPos := m.sh.inPos, outLen := m.sh.outLen, outBuf := m.sh.outBuf } })
    (hb : Buffered m) (hn : m.nbits.toNat ≤ 7) (hout : m.sh.outLen.toNat ≤ l.outMax) : m.Running cfg := by
  have hexpand : ∀ k, m.expand k = l.expand k := by
    rw [hm]
    exact expand_congr rfl rfl (fun _ => rfl) (fun _ => rfl)
  rw [hm] at hb hn hout hexpand ⊢
  exact { h with
    buffered := hn
    accumulator := hb.accumulator
    loaded := ⟨hb.behind, hb.held⟩
    output := hout
    head := fun hv str hstr => h.head hv str ((hexpand _).symm.trans hstr) }

/-- The size of the table and of the codes after an entry (R193). -/
theorem addEntry_sizes {cfg : Config} {l : Lzd} (h : l.Running cfg) (o : BitVec 12) (f : Byte) :
    (l.addEntry o f).cx.ok = true ∧
      ((l.addEntry o f).avail.toNat < (l.addEntry o f).growAt ∨ (l.addEntry o f).codeSize.toNat = 12) := by
  obtain ⟨hd2, hd8, hcs, hcs12, hff, ha⟩ := (cxOk_iff l).mp h.ranges
  by_cases hroom : l.avail.toNat < 4096
  · have havail := addEntry_avail o f l hroom
    have hsize := addEntry_codeSize o f l hroom
    have hdepth : (l.addEntry o f).depth = l.depth := by rw [addEntry_frame]; rfl
    have hfree : (l.addEntry o f).cx.firstFree = l.cx.firstFree := congrArg (2 ^ · + 2) hdepth
    have htiff : (l.addEntry o f).tiff = l.tiff := by rw [addEntry_frame]; rfl
    have hw := h.width
    refine ⟨(cxOk_iff _).mpr ?_, ?_⟩
    · rw [hdepth, hfree, havail, hsize]
      split <;> omega
    · unfold Lzd.growAt at hsize hw ⊢
      rw [havail, hsize, htiff]
      have hpos := Nat.one_le_two_pow (n := l.codeSize.toNat)
      split_ifs at hsize hw ⊢ <;> omega
  · rw [addEntry_full o f l (by omega)]
    exact ⟨h.ranges, h.width⟩

theorem addEntry_cx (o : BitVec 12) (f : Byte) (l : Lzd) :
    (l.addEntry o f).cx.clear = l.cx.clear ∧ (l.addEntry o f).cx.firstFree = l.cx.firstFree := by
  rw [addEntry_frame]
  exact ⟨rfl, rfl⟩

theorem le_addEntry_avail (o : BitVec 12) (f : Byte) (l : Lzd) : l.avail.toNat ≤ (l.addEntry o f).avail.toNat := by
  by_cases h : l.avail.toNat < 4096
  · rw [addEntry_avail o f l h]; omega
  · rw [addEntry_full o f l (by omega)]

/-- A code keeps its string when an entry is added. -/
theorem codeOk_addEntry {l : Lzd} (o : BitVec 12) (f : Byte) {k : Nat} (h : l.codeOk k) : (l.addEntry o f).codeOk k := by
  obtain ⟨hclear, hfree⟩ := addEntry_cx o f l
  unfold Lzd.codeOk at *
  rw [hclear, hfree]
  exact h.imp_right (And.imp_right fun hk => hk.trans_le (le_addEntry_avail o f l))

theorem expandIn_addEntry (o : BitVec 12) (f : Byte) {l : Lzd} (n : Nat) {k : Nat} {str : List Byte}
    (h : l.expandIn n k = some str) : (l.addEntry o f).expandIn n k = some str := by
  have hd : l.cx.n = (l.addEntry o f).cx.n := by rw [addEntry_frame]; rfl
  refine expandIn_congr l _ hd (le_addEntry_avail o f l) ?_ ?_ n k str h
  · intro k hk
    rw [addEntry_prefixAt, if_neg (by omega)]
  · intro k hk
    rw [addEntry_suffixAt, if_neg (by omega)]

/-- An added entry continues an earlier code that has a string (R193, R196). -/
theorem chain_addEntry {cfg : Config} {l : Lzd} (h : l.Running cfg) (hv : l.oldValid = true) (f : Byte) :
    ∀ k, (l.addEntry l.old f).cx.firstFree ≤ k → k < (l.addEntry l.old f).cx.avail →
      ((l.addEntry l.old f).prefixAt k).toNat < k ∧
        (l.addEntry l.old f).codeOk ((l.addEntry l.old f).prefixAt k).toNat := by
  intro k hfirst hlast
  rw [(addEntry_cx l.old f l).2] at hfirst
  have holdOk := h.old hv
  by_cases hnew : k = l.avail.toNat ∧ k < 4096
  · rw [addEntry_prefixAt, if_pos hnew]
    refine ⟨?_, codeOk_addEntry _ _ holdOk⟩
    have hclear : l.cx.clear < l.cx.firstFree := Nat.lt_add_of_pos_right (by decide)
    have hav : l.cx.avail = l.avail.toNat := rfl
    rcases holdOk with hlit | ⟨-, hentry⟩ <;> omega
  · have hlast : k < l.avail.toNat := by
      by_cases hroom : l.avail.toNat < 4096
      · have hlast : k < (l.addEntry l.old f).avail.toNat := hlast
        rw [addEntry_avail _ _ _ hroom] at hlast
        omega
      · rwa [addEntry_full _ _ _ (by omega)] at hlast
    obtain ⟨hlt, hok⟩ := h.chain k hfirst hlast
    rw [addEntry_prefixAt, if_neg hnew]
    exact ⟨hlt, codeOk_addEntry _ _ hok⟩

/-- LZD after an entry for the previous code and the byte `f`, with the code `c` remembered (R191, R192). -/
def entered (f : Byte) (c : BitVec 12) (l : Lzd) : Lzd := { Lzd.addEntry l.old f l with first := f, old := c }

theorem entered_eq (f : Byte) (c : BitVec 12) (l : Lzd) :
    { Lzd.addEntry l.old f { l with first := f } with old := c } = entered f c l := by
  unfold entered Lzd.addEntry
  dsimp only
  split <;> rfl

theorem expand_entered (f : Byte) (c : BitVec 12) (l : Lzd) (k : Nat) :
    (entered f c l).expand k = (l.addEntry l.old f).expand k :=
  expand_congr (l := entered f c l) (m := l.addEntry l.old f) rfl rfl (fun _ => rfl) (fun _ => rfl) k

/-- An entry added to the table of a run, with the code it is added for (R191 to R193). -/
theorem lzdRunning_entered {cfg : Config} {l : Lzd} (h : l.Running cfg) (hv : l.oldValid = true) (f : Byte) (c : BitVec 12)
    (hc : (l.addEntry l.old f).codeOk c.toNat)
    (hhead : ∀ str, (l.addEntry l.old f).expand c.toNat = some str → str.head? = some f) : (entered f c l).Running cfg := by
  obtain ⟨hranges, hwidth⟩ := addEntry_sizes h l.old f
  have hchain := chain_addEntry h hv f
  have hexpand := expand_entered f c l c.toNat
  unfold entered at hexpand ⊢
  rw [addEntry_frame] at hranges hwidth hchain hc hexpand ⊢
  exact { h with
    ranges := hranges
    width := hwidth
    old := fun _ => hc
    chain := hchain
    head := fun _ str hstr => hhead str (by rw [addEntry_frame]; exact hexpand.symm.trans hstr) }

/-! ### A good LZD stays good -/

section
variable {cfg : Config} {l : Lzd}

/-- The end of a run; `SHORT` only where the input has run out before `OUT_MAX` (41_lzw.md R200). -/
theorem lzdGood_finish (h : l.Good cfg) (hb : l.sh.state = .busy) (short : Bool)
    (hs : short = true → l.sh.outLen.toNat < l.outMax ∧ l.sh.inLen.toNat ≤ l.sh.inPos.toNat) :
    (l.finish short).Good cfg :=
  { h with
    shell := shellGood_finish h.shell hb _
    shortFlag := fun hflag => by
      obtain ⟨hout, hin⟩ := hs hflag
      exact ⟨decide_eq_true hout, decide_eq_false (by omega)⟩
    running := by simp }

/-- A fetch in a run leaves a good unit, whether it finds a code or the end of the input (R183 to R185). -/
theorem fill_good (h : l.Good cfg) (hb : l.sh.state = .busy) :
    Buffered (l.fill 2).1 ∧ (l.fill 2).1.sh.Good cfg .lzd ∧ (l.fill 2).1.nbits.toNat ≤ l.codeSize.toNat + 7 ∧
      ((l.fill 2).2 = true → l.codeSize.toNat ≤ (l.fill 2).1.nbits.toNat) ∧
      ((l.fill 2).2 = false → l.sh.inLen.toNat ≤ (l.fill 2).1.sh.inPos.toNat) := by
  have hr := h.running hb
  obtain ⟨-, -, -, hcs, -, -⟩ := (cxOk_iff l).mp hr.ranges
  have hframe := fill_frame 2 l
  have hn := hr.buffered
  obtain ⟨h1, h2, h3, h4⟩ :=
    fill_keeps_buffered 2 (running_buffered hr (h.shell.cursor hb).1) hcs (by omega)
  refine ⟨h1, ?_, h2, h3 (by omega), h4⟩
  have hpos := h1.cursor
  rw [hframe] at hpos ⊢
  exact shellGood_run (n := l.sh.outLen) h.shell hpos h.shell.outCanonical h.shell.outCells

/-- At the end of the input the run ends, good (R185, R200). -/
theorem lzdGood_exhausted (h : l.Good cfg) (hb : l.sh.state = .busy) (hout : l.sh.outLen.toNat < l.outMax)
    (hf : (l.fill 2).2 = false) : ((l.fill 2).1.finish true).Good cfg := by
  obtain ⟨-, hsh, -, -, hend⟩ := fill_good h hb
  have hend := hend hf
  rw [fill_frame] at hsh hend ⊢
  exact { h with
    shell := shellGood_finish hsh hb _
    shortFlag := fun _ => ⟨decide_eq_true hout, decide_eq_false (Nat.not_lt.mpr hend)⟩
    running := by simp }

/-- A fetch changes the bit buffer and the cursor only. -/
theorem fetch_frame (l : Lzd) :
    (l.fill 2).1.take.2 = { l with
      datum := (l.fill 2).1.take.2.datum
      nbits := (l.fill 2).1.take.2.nbits
      sh := { l.sh with inPos := (l.fill 2).1.sh.inPos } } := by
  refine (take_frame _).trans ?_
  generalize (l.fill 2).1.take.2.datum = d
  generalize (l.fill 2).1.take.2.nbits = n
  rw [fill_frame]

/-- A fetched code leaves a good run (R183, R184). -/
theorem lzdGood_fetch (h : l.Good cfg) (hb : l.sh.state = .busy) (hf : (l.fill 2).2 = true) :
    (l.fill 2).1.take.2.Good cfg ∧ (l.fill 2).1.take.2.sh.state = .busy := by
  obtain ⟨hbuf, hsh, hn, hcode, -⟩ := fill_good h hb
  have hcs : (l.fill 2).1.codeSize = l.codeSize := by rw [fill_frame]
  have hcode : (l.fill 2).1.codeSize.toNat ≤ (l.fill 2).1.nbits.toNat := hcs ▸ hcode hf
  have hnb := take_nbits_toNat (l.fill 2).1
  have hframe := fetch_frame l
  have hr := lzdRunning_of_buffered (m := (l.fill 2).1.take.2) (h.running hb) (by rw [hframe])
    (take_keeps_buffered hbuf hcode) (by rw [hnb, hcs]; omega) (by rw [hframe]; exact (h.running hb).output)
  rw [fill_frame] at hsh
  rw [hframe] at hr ⊢
  exact ⟨{ h with shell := hsh, running := fun _ => hr }, hb⟩

/-- An append in a run goes on and changes `OUT` and `OUT_LEN` only (R197). -/
theorem append_good (hwf : cfg.wf = true) (h : l.Good cfg) (hb : l.sh.state = .busy) (str : List Byte) :
    ∃ m, l.append cfg str = .ok m ∧ m = { l with sh := { l.sh with outLen := m.sh.outLen, outBuf := m.sh.outBuf } } ∧
      m.Good cfg := by
  have hr := h.running hb
  obtain ⟨-, -, hmax⟩ := (lzdLegal_iff cfg l).mp hr.legal
  have hmaxOut := wf_maxOut hwf
  have hout := hr.output
  have hbuf := running_buffered hr (h.shell.cursor hb).1
  have hfit : l.sh.outLen.toNat + min (l.outMax - l.sh.outLen.toNat) str.length ≤ l.outMax := by omega
  refine ⟨_, (append_eq_ok cfg str l _).mpr ⟨by omega, rfl⟩, rfl, ?_⟩
  exact { h with
    shell := shellGood_run (p := l.sh.inPos) h.shell (h.shell.cursor hb).1
      (canonical_store _ _ _ h.shell.outCanonical)
      (cellsBelow_store _ _ _ h.shell.outCells (by rw [List.length_take]; omega))
    running := fun _ => lzdRunning_of_buffered hr rfl ⟨hbuf.cursor, hbuf.accumulator, hbuf.behind, hbuf.held⟩ hr.buffered
      (by rw [word_toNat_of_lt (by omega)]; exact hfit) }

/-- The table's sizes at a legal depth, cleared: the first free code, which fits a code of one bit more than the depth
(R182, R188). -/
theorem clearTable_sizes (hd2 : 2 ≤ l.depth) (hd8 : l.depth ≤ 8) :
    l.clearTable.cx.ok = true ∧ l.clearTable.avail.toNat < l.clearTable.growAt ∧
      l.clearTable.cx.avail = l.clearTable.cx.firstFree := by
  have hcs : l.clearTable.codeSize.toNat = l.depth + 1 := by
    rw [clearTable_codeSize, BitVec.toNat_ofNat]; omega
  have hpow : 2 ^ l.depth ≤ 2 ^ 8 := Nat.pow_le_pow_right (by decide) hd8
  have hfour : 2 ^ 2 ≤ 2 ^ l.depth := Nat.pow_le_pow_right (by decide) hd2
  have hfree : l.cx.firstFree = 2 ^ l.depth + 2 := rfl
  have hav : l.clearTable.avail.toNat = l.cx.firstFree := by
    rw [clearTable_avail, BitVec.toNat_ofNat]; omega
  have hfirst : l.clearTable.cx.firstFree = l.cx.firstFree := rfl
  refine ⟨(cxOk_iff _).mpr ⟨hd2, hd8, by rw [hcs]; exact Nat.lt_succ_self _, by omega, by omega, by omega⟩, ?_, hav⟩
  unfold Lzd.growAt
  rw [hav, hcs, pow_succ]
  split <;> omega

theorem clearTable_running (h : l.Running cfg) : l.clearTable.Running cfg := by
  obtain ⟨hd2, hd8, -⟩ := (cxOk_iff l).mp h.ranges
  obtain ⟨hranges, hwidth, hempty⟩ := clearTable_sizes hd2 hd8
  exact { h with
    ranges := hranges
    width := .inl hwidth
    old := by simp
    chain := fun k hk hlt => by omega
    head := by simp }

theorem expand_literal {l : Lzd} {k : Nat} (h : k < l.cx.clear) : l.expand k = some [BitVec.ofNat 8 k] := by
  rw [Lzd.expand, show 4096 = 4095 + 1 from rfl, Lzd.expandIn, if_pos h]

/-- A literal in a run (R190). -/
theorem lit_good (hwf : cfg.wf = true) (h : l.Good cfg) (hb : l.sh.state = .busy) (c : BitVec 12)
    (hc : c.toNat < l.cx.clear) : ∃ m, l.lit cfg c = .ok m ∧ m.Good cfg := by
  obtain ⟨m, hm, hframe, hgood⟩ := append_good hwf h hb [c.setWidth 8]
  refine ⟨{ m with first := c.setWidth 8, old := c, oldValid := true }, by rw [Lzd.lit, hm], ?_⟩
  have hmb : m.sh.state = .busy := by rw [hframe]; exact hb
  have hmc : c.toNat < m.cx.clear := by rw [hframe]; exact hc
  have hstring : Lzd.expand { m with first := c.setWidth 8, old := c, oldValid := true } c.toNat =
      some [BitVec.ofNat 8 c.toNat] := expand_literal hmc
  exact { hgood with
    running := fun _ => { hgood.running hmb with
      old := fun _ => .inl hmc
      head := fun _ str hstr => by
        obtain rfl := Option.some.inj (hstring.symm.trans hstr)
        rw [BitVec.ofNat_toNat]
        rfl } }

/-- An entry does not see `OUT`. -/
theorem addEntry_out (o : BitVec 12) (f : Byte) (l : Lzd) (n : Word) (b : Mem 8) :
    Lzd.addEntry o f { l with sh := { l.sh with outLen := n, outBuf := b } } =
      { l.addEntry o f with sh := { l.sh with outLen := n, outBuf := b } } := by
  unfold Lzd.addEntry
  dsimp only
  split <;> rfl

/-- The tables keep their form when an entry is added. -/
theorem addEntry_tables (h : l.Good cfg) (o : BitVec 12) (f : Byte) :
    canonical (l.addEntry o f).prefixTab = true ∧ canonical (l.addEntry o f).suffixTab = true ∧
      cellsBelow 4096 (l.addEntry o f).prefixTab ∧ cellsBelow 4096 (l.addEntry o f).suffixTab := by
  unfold Lzd.addEntry
  split
  · next hroom =>
    exact ⟨canonical_store _ _ _ h.prefixCanonical, canonical_store _ _ _ h.suffixCanonical,
      cellsBelow_store _ _ _ h.prefixCells hroom, cellsBelow_store _ _ _ h.suffixCells hroom⟩
  · exact ⟨h.prefixCanonical, h.suffixCanonical, h.prefixCells, h.suffixCells⟩

/-- The string of a code appended and its entry made, in a run (R191, R192). -/
theorem emit_good (hwf : cfg.wf = true) (h : l.Good cfg) (hb : l.sh.state = .busy) (hv : l.oldValid = true) (f : Byte)
    (str : List Byte) (c : BitVec 12) (hc : (l.addEntry l.old f).codeOk c.toNat)
    (hhead : ∀ s, (l.addEntry l.old f).expand c.toNat = some s → s.head? = some f) :
    ∃ m, l.emit cfg c (f :: str) = .ok m ∧ m.Good cfg := by
  obtain ⟨m, hm, hframe, hgood⟩ := append_good hwf h hb (f :: str)
  refine ⟨entered f c m, (emit_eq_ok cfg c f str l _).mpr ⟨m, hm, (entered_eq f c m).symm⟩, ?_⟩
  have hadd : m.addEntry m.old f = { l.addEntry l.old f with
      sh := { l.sh with outLen := m.sh.outLen, outBuf := m.sh.outBuf } } := by
    generalize m.sh.outLen = n, m.sh.outBuf = b at hframe
    rw [hframe, addEntry_out]
  have hexpand : ∀ k, (m.addEntry m.old f).expand k = (l.addEntry l.old f).expand k := by
    rw [hadd]
    refine expand_congr ?_ rfl ?_ ?_ <;> rw [addEntry_frame] <;> intros <;> rfl
  have hr := lzdRunning_entered (hgood.running (by rw [hframe]; exact hb)) (by rw [hframe]; exact hv) f c
    (by rw [hadd]; rw [addEntry_frame] at hc ⊢; exact hc) (fun s hs => hhead s ((hexpand _).symm.trans hs))
  obtain ⟨h1, h2, h3, h4⟩ := addEntry_tables hgood m.old f
  unfold entered at hr ⊢
  rw [addEntry_frame] at h1 h2 h3 h4 hr ⊢
  exact { hgood with
    prefixCanonical := h1
    suffixCanonical := h2
    prefixCells := h3
    suffixCells := h4
    running := fun _ => hr }

/-- The string of a known code in a run (R191). -/
theorem ref_good (hwf : cfg.wf = true) (h : l.Good cfg) (hb : l.sh.state = .busy) (hv : l.oldValid = true)
    (c : BitVec 12) (hc : l.codeOk c.toNat) : ∃ m, l.ref cfg c = .ok m ∧ m.Good cfg := by
  obtain ⟨f, str, hstr⟩ := expand_defined (h.running hb) c hc
  obtain ⟨m, hm, hgood⟩ := emit_good hwf h hb hv f str c (codeOk_addEntry _ _ hc) (fun s hs => by
    rw [Lzd.expand, expandIn_addEntry _ _ _ hstr] at hs
    rw [← Option.some.inj hs]
    rfl)
  exact ⟨m, by rw [Lzd.ref, hstr]; exact hm, hgood⟩

/-- The code just being defined, in a run: its string is the previous one and that one's first byte (R192). -/
theorem kwk_good (hwf : cfg.wf = true) (h : l.Good cfg) (hb : l.sh.state = .busy) (hv : l.oldValid = true)
    (ha : l.avail.toNat < 4096) : ∃ m, l.kwk cfg = .ok m ∧ m.Good cfg := by
  have hr := h.running hb
  obtain ⟨f, str, hstr⟩ := expand_defined hr l.old (hr.old hv)
  obtain rfl : f = l.first := Option.some.inj (hr.head hv _ hstr)
  have hcode : (BitVec.ofNat 12 l.avail.toNat).toNat = l.avail.toNat := by
    rw [BitVec.toNat_ofNat]; exact Nat.mod_eq_of_lt ha
  have havail := addEntry_avail l.old l.first l ha
  obtain ⟨-, -, -, -, hfree, -⟩ := (cxOk_iff l).mp hr.ranges
  obtain ⟨hclear, hfirst⟩ := addEntry_cx l.old l.first l
  have hnew : (l.addEntry l.old l.first).cx.firstFree ≤ l.avail.toNat ∧
      l.avail.toNat < (l.addEntry l.old l.first).cx.avail := by
    refine ⟨hfirst ▸ hfree, ?_⟩
    have : (l.addEntry l.old l.first).cx.avail = l.avail.toNat + 1 := havail
    omega
  have hnotLit : ¬l.avail.toNat < (l.addEntry l.old l.first).cx.clear := by
    have : l.cx.clear < l.cx.firstFree := Nat.lt_add_of_pos_right (by decide)
    omega
  have hhead : ∀ s, (l.addEntry l.old l.first).expand l.avail.toNat = some s → s.head? = some l.first := by
    intro s hs
    rw [Lzd.expand, show 4096 = 4095 + 1 from rfl, Lzd.expandIn, if_neg hnotLit, if_pos hnew, addEntry_prefixAt,
      if_pos ⟨rfl, ha⟩] at hs
    obtain ⟨p, hp, rfl⟩ := Option.map_eq_some_iff.mp hs
    have hfull := expandIn_mono _ _ 4096 _ _ hp (by decide)
    rw [expandIn_addEntry _ _ _ hstr] at hfull
    rw [← Option.some.inj hfull]
    rfl
  obtain ⟨m, hm, hgood⟩ := emit_good hwf h hb hv l.first (str ++ [l.first]) (BitVec.ofNat 12 l.avail.toNat)
    (by rw [hcode]; exact .inr hnew) (by rw [hcode]; exact hhead)
  exact ⟨m, by rw [Lzd.kwk, hstr]; exact hm, hgood⟩

/-- In a good run every element of LZD goes on, to a good unit. -/
theorem lzdElement_good (hwf : cfg.wf = true) (h : l.Good cfg) (hb : l.sh.state = .busy) {r : Except Fault Lzd}
    (hr : LzdElement cfg l r) : ∃ m, r = .ok m ∧ m.Good cfg := by
  cases hr with
  | clear => exact ⟨_, rfl, { h with running := fun _ => clearTable_running (h.running hb) }⟩
  | eoi => exact ⟨_, rfl, lzdGood_finish h hb false (fun hs => (Bool.false_ne_true hs).elim)⟩
  | lit c hc => exact lit_good hwf h hb c hc
  | ref c hv hc => exact ref_good hwf h hb hv c hc
  | kwk hv ha => exact kwk_good hwf h hb hv ha
  | illegal =>
    exact ⟨_, rfl, { h with
      shell := shellGood_raise h.shell (by decide) _
      shortFlag := fun hs => (Bool.false_ne_true hs).elim
      running := by simp }⟩

/-- In a good run LZD's turn goes on, to a good unit. -/
theorem lzdTurn_good (hwf : cfg.wf = true) (h : l.Good cfg) (hb : l.sh.state = .busy) {r : Except Fault Lzd}
    (hr : LzdTurn cfg l r) : ∃ m, r = .ok m ∧ m.Good cfg := by
  cases hr with
  | full => exact ⟨_, rfl, lzdGood_finish h hb false (fun hs => (Bool.false_ne_true hs).elim)⟩
  | exhausted hout hf => exact ⟨_, rfl, lzdGood_exhausted h hb hout hf⟩
  | element hf r hr =>
    obtain ⟨hgood, hbusy⟩ := lzdGood_fetch h hb hf
    exact lzdElement_good hwf hgood hbusy hr

/-! ### START of LZD -/

/-- LZD's initialisation from a legal configuration is a run with an empty table and an empty bit buffer (R182). -/
theorem lzdGood_init (h : l.Good cfg) (hi : l.sh.state = .idle) (hl : l.legal cfg = true) : l.init.Good cfg := by
  obtain ⟨hdepth, hin, -⟩ := (lzdLegal_iff cfg l).mp hl
  obtain ⟨hranges, hwidth, hempty⟩ := clearTable_sizes (l := l) (by omega) (by omega)
  have hheld : l.init.held = [] := by
    unfold Lzd.held
    split <;> rfl
  exact { h with
    shell := shellGood_run_starts h.shell hi hin _
    running := fun _ =>
      { legal := hl
        ranges := hranges
        width := .inl hwidth
        buffered := Nat.zero_le _
        accumulator := Nat.one_pos
        loaded := ⟨Nat.zero_le _, hheld.trans (List.take_zero ..).symm⟩
        output := Nat.zero_le _
        old := fun hv => (Bool.false_ne_true hv).elim
        chain := fun k hk hlt => absurd hlt (Nat.not_lt.mpr (hempty ▸ hk))
        head := fun hv => (Bool.false_ne_true hv).elim } }

theorem lzdGood_start (h : l.Good cfg) : (l.start cfg).Good cfg := by
  unfold Lzd.start
  dsimp only
  split_ifs with hi hl
  · have hclear : Lzd.Good cfg { l with sh := l.sh.startClear } :=
      { h with
        shell := shellGood_startClear h.shell hi
        shortFlag := fun hs => (Bool.false_ne_true hs).elim
        running := by simp [hi] }
    exact lzdGood_init hclear hi hl
  · exact { h with
      shell := shellGood_raise (shellGood_startClear h.shell hi) (by decide) 0
      shortFlag := fun hs => (Bool.false_ne_true hs).elim
      running := by simp }
  · exact h

/-! ### No turn of LZD ends in IDLE -/

theorem append_state {str : List Byte} {m : Lzd} (h : l.append cfg str = .ok m) : m.sh.state = l.sh.state := by
  obtain ⟨-, rfl⟩ := (append_eq_ok cfg str l m).mp h
  rfl

theorem emit_state {c : BitVec 12} {str : List Byte} {m : Lzd} (h : l.emit cfg c str = .ok m) :
    m.sh.state = l.sh.state := by
  cases str with
  | nil => cases h
  | cons f str =>
    obtain ⟨l1, h1, rfl⟩ := (emit_eq_ok cfg c f str l m).mp h
    rw [addEntry_frame]
    have hs := append_state h1
    exact hs

theorem lzdElement_not_idle {m : Lzd} (hb : l.sh.state ≠ .idle) (hr : LzdElement cfg l (.ok m)) : m.sh.state ≠ .idle := by
  generalize hm : Except.ok m = r at hr
  cases hr with
  | clear => obtain rfl := Except.ok.inj hm; exact hb
  | eoi => obtain rfl := Except.ok.inj hm; simp
  | illegal => obtain rfl := Except.ok.inj hm; simp
  | lit c hc =>
    rw [Lzd.lit] at hm
    split at hm
    · cases hm
    · next l1 h1 =>
      obtain rfl := Except.ok.inj hm
      exact (append_state h1).symm ▸ hb
  | ref c hv hc =>
    rw [Lzd.ref] at hm
    split at hm
    · cases hm
    · exact (emit_state hm.symm).symm ▸ hb
  | kwk hv ha =>
    rw [Lzd.kwk] at hm
    split at hm
    · cases hm
    · exact (emit_state hm.symm).symm ▸ hb

theorem lzdTurn_not_idle {m : Lzd} (hb : l.sh.state ≠ .idle) (hr : LzdTurn cfg l (.ok m)) : m.sh.state ≠ .idle := by
  generalize hm : Except.ok m = r at hr
  cases hr with
  | full => obtain rfl := Except.ok.inj hm; simp
  | exhausted hout hf => obtain rfl := Except.ok.inj hm; simp
  | element hf r hr =>
    subst hm
    exact lzdElement_not_idle (by rw [fetch_frame]; exact hb) hr

end

/-! ### The run words of G4E (30_encoding.md R114) -/

/-- The elements of a colour, in index order. -/
def runInstrs : Colour → List Instr
  | .white => whiteInstrs
  | .black => blackInstrs

theorem runWord_instr (w : RunWord) : w.instr = (runInstrs w.colour)[w.index.val]? := by
  unfold RunWord.instr runInstrs
  cases w.colour <;> rfl

/-- The meanings of a colour's elements, in index order: each packs its own word. -/
theorem exec_runInstrs (c : Colour) : (runInstrs c).map exec = (List.finRange 104).map fun k => emitRun ⟨c, k⟩ := by
  cases c <;> rfl

/-- Every run word has an element, and the element packs it (30_encoding.md R114, R120). -/
theorem exec_runWord (w : RunWord) : ∃ i, w.instr = some i ∧ ∀ s, exec i s = emitRun w s := by
  have hmap := congrArg (fun fs => fs[w.index.val]?) (exec_runInstrs w.colour)
  simp only [List.getElem?_map] at hmap
  rw [← runWord_instr, List.getElem?_eq_getElem (by simp), List.getElem_finRange] at hmap
  obtain ⟨i, hi, he⟩ := Option.map_eq_some_iff.mp hmap
  exact ⟨i, hi, fun s => congrFun he s⟩

/-! ### The bit packer (42_g4_encoder.md R235) -/

/-- 1 to 8 low bits of `ACC` are free, and they are 0 (10_state.md R38). -/
def FreeZero (acc : Byte) (free : BitVec 4) : Prop :=
  (1 ≤ free.toNat ∧ free.toNat ≤ 8) ∧ acc.toNat % 2 ^ free.toNat = 0

theorem packerOk_iff (g : G4e) : g.PackerOk ↔ FreeZero g.acc g.free := ⟨fun ⟨h1, h2⟩ => ⟨h1, h2⟩, fun ⟨h1, h2⟩ => ⟨h1, h2⟩⟩

theorem freeZero_empty : FreeZero 0 8 := ⟨by decide, by decide⟩

/-- What the packer does to `OUT`: it grows inside its space. -/
structure OutKept (cfg : Config) (sh : Shell) (n : Word) (m : Mem 8) : Prop where
  length : sh.outLen.toNat ≤ cfg.maxOut → n.toNat ≤ cfg.maxOut
  canonical : canonical sh.outBuf = true → Machine.canonical m = true
  cells : cellsBelow cfg.maxOut sh.outBuf → cellsBelow cfg.maxOut m

/-- The packer's two answers: bits sent, or `E_OVF` after some of them (R235, R239). -/
inductive PutResult (cfg : Config) (g : G4e) : Except G4e G4e → Prop
  | sent (a : Byte) (f : BitVec 4) (n : Word) (m : Mem 8) (hout : OutKept cfg g.sh n m)
      (hpacker : FreeZero g.acc g.free → FreeZero a f) :
      PutResult cfg g (.ok { g with acc := a, free := f, sh := { g.sh with outLen := n, outBuf := m } })
  | overflow (a : Byte) (f : BitVec 4) (n : Word) (m : Mem 8) (hout : OutKept cfg g.sh n m) :
      PutResult cfg g (.error { g with
        acc := a
        free := f
        sh := ({ g.sh with outLen := n, outBuf := m } : Shell).raise .ovf g.sh.inPos })

theorem outKept_refl (cfg : Config) (sh : Shell) : OutKept cfg sh sh.outLen sh.outBuf := ⟨id, id, id⟩

/-- What follows bits sent. -/
theorem putResult_trans {cfg : Config} {g g1 : G4e} {r : Except G4e G4e} (h1 : PutResult cfg g (.ok g1))
    (h2 : PutResult cfg g1 r) : PutResult cfg g r := by
  cases h1 with
  | sent a f n m hout hpacker =>
    cases h2 with
    | sent a' f' n' m' hout' hpacker' =>
      exact .sent a' f' n' m' ⟨hout'.length ∘ hout.length, hout'.canonical ∘ hout.canonical, hout'.cells ∘ hout.cells⟩
        (hpacker' ∘ hpacker)
    | overflow a' f' n' m' hout' =>
      exact .overflow a' f' n' m' ⟨hout'.length ∘ hout.length, hout'.canonical ∘ hout.canonical, hout'.cells ∘ hout.cells⟩

/-- A byte sent empties the packer (R235). -/
theorem emitAcc_result (cfg : Config) (g : G4e) (a : Byte) (f : BitVec 4) :
    PutResult cfg g (G4e.emitAcc cfg { g with acc := a, free := f }) := by
  unfold G4e.emitAcc
  cases h : G4e.emitByte cfg a { g with acc := a, free := f } with
  | error e =>
    obtain ⟨-, rfl⟩ := (emitByte_eq_error ..).mp h
    exact .overflow a f _ _ (outKept_refl cfg g.sh)
  | ok e =>
    obtain ⟨hroom, rfl⟩ := (emitByte_eq_ok ..).mp h
    refine .sent 0 8 _ _ ⟨fun _ => ?_, canonical_store _ _ _, fun hc => cellsBelow_store _ _ _ hc hroom⟩
      fun _ => freeZero_empty
    exact (word_toNat _ ▸ Nat.mod_le _ _).trans hroom

/-- Bits filled in above the free ones leave the free ones 0 (10_state.md R38). -/
theorem freeZero_fill {acc : Byte} {free : BitVec 4} (h : FreeZero acc free) (len code : Nat) (hlt : len < free.toNat) :
    FreeZero (acc ||| BitVec.ofNat 8 (code <<< (free.toNat - len))) (BitVec.ofNat 4 (free.toNat - len)) := by
  obtain ⟨⟨h1, h8⟩, hlow⟩ := h
  have hfree : (BitVec.ofNat 4 (free.toNat - len)).toNat = free.toNat - len := by
    rw [BitVec.toNat_ofNat]; omega
  unfold FreeZero
  refine ⟨by omega, ?_⟩
  have hacc : acc.toNat % 2 ^ (free.toNat - len) = 0 :=
    Nat.mod_eq_zero_of_dvd ((pow_dvd_pow 2 (Nat.sub_le _ _)).trans (Nat.dvd_of_mod_eq_zero hlow))
  have hcode : code <<< (free.toNat - len) % 2 ^ 8 % 2 ^ (free.toNat - len) = 0 := by
    rw [Nat.mod_mod_of_dvd _ (pow_dvd_pow 2 (by omega)), Nat.shiftLeft_eq, Nat.mul_mod_left]
  rw [hfree, BitVec.toNat_or, BitVec.toNat_ofNat, Nat.or_mod_two_pow, hacc, hcode]
  rfl

theorem pack_result (cfg : Config) : ∀ (fuel len code : Nat) (g : G4e), PutResult cfg g (g.pack cfg fuel len code) := by
  intro fuel
  induction fuel with
  | zero => intro len code g; exact .sent g.acc g.free _ _ (outKept_refl cfg g.sh) id
  | succ fuel ih =>
    intro len code g
    rw [G4e.pack]
    dsimp only
    split
    · have hemit := emitAcc_result cfg g (g.acc ||| BitVec.ofNat 8 (code >>> (len - g.free.toNat))) g.free
      split
      · next e he => rw [he] at hemit; exact hemit
      · next g1 he => rw [he] at hemit; exact putResult_trans hemit (ih _ _ _)
    · split
      · exact emitAcc_result cfg g _ _
      · exact .sent _ _ _ _ (outKept_refl cfg g.sh) fun hp => freeZero_fill hp len code (by omega)

theorem putbits_result (cfg : Config) (c : CodeWord) (g : G4e) : PutResult cfg g (g.putbits cfg c) :=
  pack_result cfg _ _ _ g

/-- No answer of the packer is IDLE. -/
theorem putResult_not_idle {cfg : Config} {g : G4e} {r : Except G4e G4e} (h : PutResult cfg g r)
    (hb : g.sh.state ≠ .idle) : (packed r).sh.state ≠ .idle := by
  cases h with
  | sent a f n m hout hpacker => exact hb
  | overflow a f n m hout => simp

/-! ### A good G4E stays good -/

section
variable {cfg : Config} {g : G4e}

/-- `A0`, `A1`, `B1` are those of the row start or of an advance: the registers concerned, by themselves (R226, R229). -/
theorem elements_iff (g : G4e) :
    (g = g.rowStart ∨ g = g.advance) ↔
      (g.a0 = 0 ∧ g.a1 = g.rowStart.a1 ∧ g.b1 = g.rowStart.b1) ∨ (g.a1 = g.advance.a1 ∧ g.b1 = g.advance.b1) := by
  refine or_congr ⟨fun h => ?_, fun ⟨h0, h1, h2⟩ => ?_⟩ ⟨fun h => ?_, fun ⟨h1, h2⟩ => ?_⟩
  · exact ⟨congrArg G4e.a0 h, congrArg G4e.a1 h, congrArg G4e.b1 h⟩
  · calc g = { g with a0 := g.a0, a1 := g.a1, b1 := g.b1 } := rfl
      _ = { g with a0 := 0, a1 := g.rowStart.a1, b1 := g.rowStart.b1 } := by rw [← h0, ← h1, ← h2]
      _ = g.rowStart := rfl
  · exact ⟨congrArg G4e.a1 h, congrArg G4e.b1 h⟩
  · calc g = { g with a1 := g.a1, b1 := g.b1 } := rfl
      _ = { g with a1 := g.advance.a1, b1 := g.advance.b1 } := by rw [← h1, ← h2]
      _ = g.advance := rfl

/-- Good but for the run words still to pack (log 5): what holds within a horizontal mode. -/
def Steady (cfg : Config) (g : G4e) : Prop := G4e.Good cfg { g with pend := [] }

theorem steady_of_good (h : g.Good cfg) : Steady cfg g :=
  { h with
    running := fun hb =>
      { h.running hb with
        packer := (packerOk_iff _).mpr ((packerOk_iff g).mp (h.running hb).packer)
        elements := fun hi => (elements_iff _).mpr ((elements_iff g).mp ((h.running hb).elements hi))
        nothingPending := rfl } }

theorem good_of_steady (h : Steady cfg g) (hp : g.sh.state = .busy → g.pend = []) : g.Good cfg :=
  { h with
    running := fun hb =>
      { h.running hb with
        packer := (packerOk_iff _).mpr ((packerOk_iff { g with pend := [] }).mp (h.running hb).packer)
        elements := fun hi => (elements_iff _).mpr ((elements_iff { g with pend := [] }).mp ((h.running hb).elements hi))
        nothingPending := hp hb } }

/-- Bits sent within a run leave it steady. -/
theorem steady_sent (h : Steady cfg g) (hb : g.sh.state = .busy) {g1 : G4e} (hr : PutResult cfg g (.ok g1)) :
    Steady cfg g1 ∧ g1.sh.state = .busy ∧ g1.pend = g.pend ∧ g1.inrow = g.inrow := by
  cases hr with
  | sent a f n m hout hpacker =>
    have hrun := h.running hb
    refine ⟨{ h with
      shell := shellGood_run (p := g.sh.inPos) h.shell (h.shell.cursor hb).1 (hout.canonical h.shell.outCanonical)
        (hout.cells h.shell.outCells)
      running := fun _ =>
        { hrun with
          packer := (packerOk_iff _).mpr (hpacker ((packerOk_iff { g with pend := [] }).mp hrun.packer))
          output := hout.length hrun.output
          elements := fun hi => (elements_iff _).mpr ((elements_iff { g with pend := [] }).mp (hrun.elements hi)) } },
      hb, rfl, rfl⟩

/-- An overflow leaves a good unit in FAULT (R239). -/
theorem good_overflow (h : Steady cfg g) (hb : g.sh.state = .busy) {g1 : G4e} (hr : PutResult cfg g (.error g1)) :
    g1.Good cfg ∧ g1.sh.state = .fault := by
  cases hr with
  | overflow a f n m hout =>
    have hsh := shellGood_run (p := g.sh.inPos) (n := n) h.shell (h.shell.cursor hb).1
      (hout.canonical h.shell.outCanonical) (hout.cells h.shell.outCells)
    exact ⟨{ h with
      shell := shellGood_raise hsh (by decide) _
      noShort := ⟨rfl, rfl⟩
      running := by simp }, rfl⟩

/-! ### Rows -/

theorem g4eLegal_iff (cfg : Config) (g : G4e) :
    g.legal cfg = true ↔ 1 ≤ g.width ∧ g.width ≤ cfg.maxW ∧ g.height ≤ cfg.maxH ∧ g.sh.inLen.toNat ≤ cfg.maxIn ∧
      g.rowBytes * g.height ≤ cfg.maxIn := by
  simp only [G4e.legal, Bool.and_eq_true, decide_eq_true_eq, and_assoc]

theorem rowBytes_le_rowCells (h : g.legal cfg = true) : g.rowBytes ≤ rowCells cfg := by
  obtain ⟨-, hw, -⟩ := (g4eLegal_iff cfg g).mp h
  exact ceilDiv_mono hw 8

/-- Neither row end nor advance sees the run words to pack. -/
theorem afterMode_pend (g : G4e) (ws : List RunWord) :
    G4e.afterMode { g with pend := ws } = { g.afterMode with pend := ws } := by
  by_cases h : g.width ≤ g.a0.toNat
  · rw [afterMode_end g h, afterMode_end { g with pend := ws } h]
    rfl
  · have h := Nat.not_le.mp h
    rw [afterMode_advance g h, afterMode_advance { g with pend := ws } h]
    rfl

/-- Row end or advance after a mode has set `A0`, whatever it set it to (R229, R230, R236). -/
theorem good_afterMode (h : g.Good cfg) (hb : g.sh.state = .busy) (hi : g.inrow = true) (x : Word) :
    (G4e.afterMode { g with a0 := x }).Good cfg := by
  have hr := h.running hb
  have hrow := (hr.inRow hi).1
  have hconsumed : g.sh.inPos.toNat = g.rowBytes * (g.row.toNat + 1) := by rw [hr.consumed, if_pos hi]
  by_cases hx : g.width ≤ x.toNat
  · rw [afterMode_end _ hx]
    have hnext : (word (g.row.toNat + 1)).toNat = g.row.toNat + 1 :=
      word_toNat_of_lt (by have : g.height < 2 ^ 32 := g.sh.cfg1.isLt; omega)
    exact { h with
      refCanonical := canonical_store _ _ _ h.refCanonical
      refCells := cellsBelow_store _ _ _ h.refCells
        (by rw [readBlock_length, Nat.zero_add]; exact rowBytes_le_rowCells hr.legal)
      running := fun _ =>
        { legal := hr.legal
          packer := (packerOk_iff _).mpr ((packerOk_iff g).mp hr.packer)
          output := hr.output
          rows := by rw [endRow_row, hnext]; exact hrow
          inRow := fun hf => (Bool.false_ne_true hf).elim
          elements := fun hf => (Bool.false_ne_true hf).elim
          consumed := by rw [endRow_row, hnext]; exact hconsumed
          nothingPending := hr.nothingPending } }
  · rw [afterMode_advance _ (Nat.not_le.mp hx)]
    exact { h with
      running := fun _ =>
        { legal := hr.legal
          packer := (packerOk_iff _).mpr ((packerOk_iff g).mp hr.packer)
          output := hr.output
          rows := hr.rows
          inRow := fun _ => ⟨hrow, Nat.not_le.mp hx⟩
          elements := fun _ => .inr rfl
          consumed := hr.consumed
          nothingPending := hr.nothingPending } }

/-- A row opened in a run (R230, R238). -/
theorem openRow_good (h : g.Good cfg) (hb : g.sh.state = .busy) (hi : g.inrow = false) (hrow : g.row.toNat < g.height) :
    ∃ t, g.openRow cfg = .ok t ∧ t.Good cfg := by
  have hr := h.running hb
  have hcells := rowBytes_le_rowCells hr.legal
  unfold G4e.openRow
  split
  · exact ⟨_, rfl, { h with
      shell := shellGood_raise h.shell (by decide) _
      noShort := ⟨rfl, rfl⟩
      running := by simp }⟩
  · next hin =>
    have hin := Nat.not_lt.mp hin
    rw [if_neg (by omega)]
    refine ⟨_, rfl, { h with
      shell := shellGood_advance h.shell hin
      curCanonical := canonical_store _ _ _ h.curCanonical
      curCells := cellsBelow_store _ _ _ h.curCells (by rw [readBlock_length, Nat.zero_add]; exact hcells)
      running := fun _ =>
        { legal := hr.legal
          packer := (packerOk_iff _).mpr ((packerOk_iff g).mp hr.packer)
          output := hr.output
          rows := hr.rows
          inRow := fun _ => ⟨hrow, ?_⟩
          elements := fun _ => .inl rfl
          consumed := ?_
          nothingPending := hr.nothingPending } }⟩
    · obtain ⟨hw, -⟩ := (g4eLegal_iff cfg g).mp hr.legal
      exact hw
    · have hcons := hr.consumed
      rw [hi] at hcons
      calc (g.sh.advance g.rowBytes).inPos.toNat = g.sh.inPos.toNat + g.rowBytes := advance_inPos_toNat hin
        _ = g.rowBytes * (g.row.toNat + 0) + g.rowBytes := by rw [hcons]; rfl
        _ = g.rowBytes * (g.row.toNat + 1) := by ring

/-! ### Modes (R230 to R233) -/

/-- What a mode does: its word, then `A0` and what follows a mode, with the run words it leaves. -/
inductive ModeResult (cfg : Config) (g : G4e) : G4e → Prop
  | mk (c : CodeWord) (x : Word) (ws : List RunWord) (k : G4e → G4e)
      (hk : ∀ g1, k g1 = G4e.afterMode { g1 with pend := g1.pend ++ ws, a0 := x }) :
      ModeResult cfg g (G4e.thenDo (g.putbits cfg c) k)

theorem modeResult_passMode (cfg : Config) (g : G4e) : ModeResult cfg g (g.passMode cfg) :=
  .mk _ (word g.b2) [] _ fun g1 => by rw [List.append_nil]

theorem modeResult_vertical (cfg : Config) (w : CodeWord) (g : G4e) : ModeResult cfg g (g.vertical cfg w) :=
  .mk _ g.a1 [] _ fun g1 => by rw [List.append_nil]

theorem modeResult_horizontal (cfg : Config) (g : G4e) : ModeResult cfg g (g.horizontal cfg) :=
  .mk _ (word g.a2) g.modeRuns _ fun _ => rfl

/-- The element of a mode step is a mode's, whichever is due. -/
theorem exec_mode (s : State) : ∃ t, exec s.g4e.mode s = .next { s with g4e := t } ∧ ModeResult s.cfg s.g4e t := by
  unfold G4e.mode
  split
  · exact ⟨_, rfl, modeResult_passMode _ _⟩
  · unfold verticalOf
    split_ifs
    · exact ⟨_, rfl, modeResult_vertical _ s.cfg.modeTab.vr3 _⟩
    · exact ⟨_, rfl, modeResult_vertical _ s.cfg.modeTab.vr2 _⟩
    · exact ⟨_, rfl, modeResult_vertical _ s.cfg.modeTab.vr1 _⟩
    · exact ⟨_, rfl, modeResult_vertical _ s.cfg.modeTab.v0 _⟩
    · exact ⟨_, rfl, modeResult_vertical _ s.cfg.modeTab.vl1 _⟩
    · exact ⟨_, rfl, modeResult_vertical _ s.cfg.modeTab.vl2 _⟩
    · exact ⟨_, rfl, modeResult_vertical _ s.cfg.modeTab.vl3 _⟩
    · exact ⟨_, rfl, modeResult_horizontal _ _⟩

theorem afterMode_sh (g : G4e) : g.afterMode.sh = g.sh := by
  unfold G4e.afterMode
  split <;> rfl

/-- A mode in a run leaves the unit steady, with its run words to pack, or in FAULT. -/
theorem steady_mode (h : g.Good cfg) (hb : g.sh.state = .busy) (hi : g.inrow = true) {t : G4e} (ht : ModeResult cfg g t) :
    Steady cfg t := by
  cases ht with
  | mk c x ws k hk =>
    have hput := putbits_result cfg c g
    cases hp : g.putbits cfg c with
    | error g1 =>
      rw [hp] at hput
      exact steady_of_good (good_overflow (steady_of_good h) hb hput).1
    | ok g1 =>
      rw [hp] at hput
      obtain ⟨hs, hb1, -, hi1⟩ := steady_sent (steady_of_good h) hb hput
      have hafter := good_afterMode hs hb1 (hi1.trans hi) x
      rw [thenDo_ok, hk]
      unfold Steady
      rw [← afterMode_pend]
      exact hafter

/-- The run words a horizontal mode left are packed, to a good unit (R233). -/
theorem drain_good {s : State} (hwf : s.cfg.wf = true) : ∀ (ws : List RunWord) (g : G4e), Steady s.cfg g →
    g.sh.state = .busy → g.pend = ws →
    ∃ t : G4e, drain ws { s with g4e := g } = .next { s with g4e := t } ∧ t.Good s.cfg := by
  intro ws
  induction ws with
  | nil => intro g h _ hp; exact ⟨g, rfl, good_of_steady h fun _ => hp⟩
  | cons w ws ih =>
    intro g h hb _
    obtain ⟨i, hi, hexec⟩ := exec_runWord w
    obtain ⟨c, hcode, -⟩ := runCode_isSome s.cfg w hwf
    have hemit := (hexec { s with g4e := { g with pend := ws } }).trans (emitRun_eq w _ c hcode)
    have hput := putbits_result s.cfg c { g with pend := ws }
    rw [drain_cons { s with g4e := g } w ws i _ hi hemit]
    dsimp only
    cases hr : G4e.putbits s.cfg c { g with pend := ws } with
    | error g1 =>
      rw [hr] at hput
      obtain ⟨hgood, hfault⟩ := good_overflow (g := { g with pend := ws }) h hb hput
      rw [packed_error, if_neg (by simp [Shell.busy, hfault])]
      exact ⟨g1, rfl, hgood⟩
    | ok g1 =>
      rw [hr] at hput
      obtain ⟨hs, hb1, hp1, -⟩ := steady_sent (g := { g with pend := ws }) h hb hput
      rw [packed_ok, if_pos ((busy_iff _).mpr hb1)]
      exact ih g1 hs hb1 hp1

/-- A mode step of a run goes on, to a good unit (R230). -/
theorem runMode_good {s : State} (hwf : s.cfg.wf = true) (h : s.g4e.Good s.cfg) (hb : s.g4e.sh.state = .busy)
    (hi : s.g4e.inrow = true) : ∃ t : G4e, runMode s.g4e.mode s = .next { s with g4e := t } ∧ t.Good s.cfg := by
  obtain ⟨t, he, hmode⟩ := exec_mode s
  have hs := steady_mode h hb hi hmode
  rw [runMode_next s _ _ he]
  by_cases hbt : t.sh.state = .busy
  · rw [if_pos ((busy_iff _).mpr hbt)]
    exact drain_good hwf t.pend t hs hbt rfl
  · rw [if_neg (mt (busy_iff _).mp hbt)]
    exact ⟨t, rfl, good_of_steady hs fun hb => absurd hb hbt⟩

/-! ### The end of block (R237) -/

/-- Bits sent within a run and then a step that goes on from there. -/
theorem thenDo_good (h : Steady cfg g) (hb : g.sh.state = .busy) {r : Except G4e G4e} (hr : PutResult cfg g r)
    {k : G4e → G4e} (hk : ∀ g1, Steady cfg g1 → g1.sh.state = .busy → (k g1).Good cfg) : (G4e.thenDo r k).Good cfg := by
  cases r with
  | error g1 => exact (good_overflow h hb hr).1
  | ok g1 =>
    obtain ⟨hs, hb1, -, -⟩ := steady_sent h hb hr
    exact hk g1 hs hb1

/-- The last byte is sent where it is partly filled. -/
theorem flush_result (cfg : Config) (g : G4e) : PutResult cfg g (if g.free = 8 then .ok g else g.emitAcc cfg) := by
  split
  · exact .sent g.acc g.free _ _ (outKept_refl cfg g.sh) id
  · exact emitAcc_result cfg g g.acc g.free

theorem endOfBlock_good (h : Steady cfg g) (hb : g.sh.state = .busy) : (g.endOfBlock cfg).Good cfg := by
  refine thenDo_good h hb (putbits_result ..) fun g1 h1 hb1 => ?_
  refine thenDo_good h1 hb1 (putbits_result ..) fun g2 h2 hb2 => ?_
  refine thenDo_good h2 hb2 (flush_result cfg g2) fun g3 h3 hb3 => ?_
  exact { h3 with
    shell := shellGood_finish h3.shell hb3 _
    noShort := ⟨rfl, rfl⟩
    running := by simp }

/-! ### G4E's turn -/

/-- In a good run G4E's turn goes on, to a good unit (R230). -/
theorem g4eStep_good {s : State} (hwf : s.cfg.wf = true) (h : s.g4e.Good s.cfg) (hb : s.g4e.sh.state = .busy) :
    ∃ t : G4e, g4eStep s = .next { s with g4e := t } ∧ t.Good s.cfg := by
  have hr := h.running hb
  unfold g4eStep
  rw [if_neg (by rw [hr.nothingPending]; simp)]
  split
  · next hi => exact runMode_good hwf h hb hi
  · next hi =>
    split
    · exact ⟨_, rfl, endOfBlock_good (steady_of_good h) hb⟩
    · next hne =>
      have hrow : s.g4e.row.toNat < s.g4e.height := lt_of_le_of_ne hr.rows hne
      obtain ⟨t, ht, hgood⟩ := openRow_good h hb (by simpa using hi) hrow
      rw [if_pos hrow, ht]
      exact ⟨t, rfl, hgood⟩

/-! ### START of G4E -/

/-- G4E's initialisation from a legal configuration is a run before its first row (R222). -/
theorem g4eGood_init (h : g.Good cfg) (hi : g.sh.state = .idle) (hl : g.legal cfg = true) : g.init.Good cfg := by
  obtain ⟨-, -, -, hin, -⟩ := (g4eLegal_iff cfg g).mp hl
  exact { h with
    shell := shellGood_run_starts h.shell hi hin _
    refCanonical := canonical_store _ _ _ h.refCanonical
    refCells := cellsBelow_store _ _ _ h.refCells
      (by rw [List.length_replicate, Nat.zero_add]; exact rowBytes_le_rowCells hl)
    running := fun _ =>
      { legal := hl
        packer := (packerOk_iff _).mpr freeZero_empty
        output := Nat.zero_le _
        rows := Nat.zero_le _
        inRow := fun hf => (Bool.false_ne_true hf).elim
        elements := fun hf => (Bool.false_ne_true hf).elim
        consumed := rfl
        nothingPending := rfl } }

theorem g4eGood_start (h : g.Good cfg) : (g.start cfg).Good cfg := by
  unfold G4e.start
  dsimp only
  split_ifs with hi hl
  · have hclear : G4e.Good cfg { g with sh := g.sh.startClear } :=
      { h with
        shell := shellGood_startClear h.shell hi
        noShort := ⟨rfl, rfl⟩
        running := by simp [hi] }
    exact g4eGood_init hclear hi hl
  · exact { h with
      shell := shellGood_raise (shellGood_startClear h.shell hi) (by decide) 0
      noShort := ⟨rfl, rfl⟩
      running := by simp }
  · exact h

end

/-! ### The units' turns from a good state -/

/-- A unit's turn from a good state goes on, to a good state. -/
theorem unitStep_good {s : State} (h : s.Good) (u : UnitId) : ∃ t, unitStep u s = .next t ∧ t.Good := by
  by_cases hb : (s.shell u).state = .busy
  · cases u with
    | pfe =>
      obtain ⟨r, hs, hr⟩ := pfeStep_cases s
      obtain ⟨p, rfl, hgood⟩ := pfeTurn_good h.params h.pfe hb hr
      exact ⟨_, (unitStep_pfe s hb).trans hs, { h with pfe := hgood }⟩
    | lzd =>
      obtain ⟨r, hs, hr⟩ := lzdStep_cases s
      obtain ⟨l, rfl, hgood⟩ := lzdTurn_good h.params h.lzd hb hr
      exact ⟨_, (unitStep_lzd s hb).trans hs, { h with lzd := hgood }⟩
    | g4e =>
      obtain ⟨g, hs, hgood⟩ := g4eStep_good h.params h.g4e hb
      exact ⟨_, (unitStep_g4e s hb).trans hs, { h with g4e := hgood }⟩
    | rld =>
      obtain ⟨r, hs, hr⟩ := rldStep_cases s
      obtain ⟨q, rfl, hgood⟩ := rldTurn_good h.rld hb hr
      exact ⟨_, (unitStep_rld s hb).trans hs, { h with rld := hgood }⟩
  · exact ⟨s, unitStep_idle u s hb, h⟩

/-! ### The host's accesses -/

/-- What a host access other than START does to a unit's flags, and to a BUSY unit (44_host_commands.md R290 to R295). -/
structure HostChange (sh sh' : Shell) : Prop where
  flags : sh'.flags = sh.flags ∨ sh'.flags = .clear
  busy : sh'.state = .busy → ∃ v, sh' = { sh with ie := v }

theorem hostChange_clear (sh : Shell) : HostChange sh sh.clear := by
  unfold Shell.clear
  split
  · exact ⟨.inl rfl, fun _ => ⟨sh.ie, rfl⟩⟩
  all_goals exact ⟨.inr rfl, fun hb => by cases hb⟩

theorem hostChange_writeIn (sh : Shell) (n a : Nat) (v : Byte) : HostChange sh (sh.writeIn n a v) := by
  unfold Shell.writeIn
  split_ifs with hb ha
  · exact ⟨.inl rfl, fun _ => ⟨sh.ie, rfl⟩⟩
  · exact ⟨.inl rfl, fun hs => absurd ((busy_iff sh).mpr hs) hb⟩
  · exact ⟨.inl rfl, fun _ => ⟨sh.ie, rfl⟩⟩

theorem hostChange_writeReg (u : UnitId) (sh : Shell) (i : BitVec 4) (v : Word) : HostChange sh (sh.writeReg u i v) := by
  unfold Shell.writeReg
  split_ifs with h2 hb h3 h8 h9 h10
  · exact ⟨.inl rfl, fun _ => ⟨_, rfl⟩⟩
  · exact ⟨.inl rfl, fun _ => ⟨sh.ie, rfl⟩⟩
  all_goals exact ⟨.inl rfl, fun hs => absurd ((busy_iff sh).mpr hs) hb⟩

theorem hostChange_noShort {sh sh' : Shell} (h : HostChange sh sh') (hf : sh.flags.short = false ∧ sh.flags.under = false) :
    sh'.flags.short = false ∧ sh'.flags.under = false := by
  rcases h.flags with hs | hs <;> rw [hs]
  · exact hf
  · exact ⟨rfl, rfl⟩

theorem hostChange_shortFlag {sh sh' : Shell} (h : HostChange sh sh')
    (hf : sh.flags.short = true → sh.flags.under = true ∧ sh.flags.inRem = false) :
    sh'.flags.short = true → sh'.flags.under = true ∧ sh'.flags.inRem = false := by
  rcases h.flags with hs | hs <;> rw [hs]
  · exact hf
  · exact fun hc => (Bool.false_ne_true hc).elim

/-- A unit's registers and buffers changed as a host access changes them keep the state good. -/
theorem good_setShell {s : State} (h : s.Good) (u : UnitId) {sh : Shell} (hsh : sh.Good s.cfg u)
    (hc : HostChange (s.shell u) sh) : (s.setShell u sh).Good := by
  cases u with
  | pfe =>
    exact { h with
      pfe := { h.pfe with
        shell := hsh
        noShort := hostChange_noShort hc h.pfe.noShort
        running := fun hb => by
          obtain ⟨v, rfl⟩ := hc.busy hb
          obtain ⟨hl, hp, hr⟩ := h.pfe.running hb
          exact ⟨hl, hp, hr⟩ } }
  | lzd =>
    exact { h with
      lzd := { h.lzd with
        shell := hsh
        shortFlag := hostChange_shortFlag hc h.lzd.shortFlag
        running := fun hb => by
          obtain ⟨v, rfl⟩ := hc.busy hb
          have hr := h.lzd.running hb
          obtain ⟨h1, h2, h3, h4⟩ := running_buffered hr (h.lzd.shell.cursor hb).1
          exact lzdRunning_of_buffered hr rfl ⟨h1, h2, h3, h4⟩ hr.buffered hr.output } }
  | g4e =>
    exact { h with
      g4e := { h.g4e with
        shell := hsh
        noShort := hostChange_noShort hc h.g4e.noShort
        running := fun hb => by
          obtain ⟨v, rfl⟩ := hc.busy hb
          have hr := h.g4e.running hb
          exact { hr with
            packer := (packerOk_iff _).mpr ((packerOk_iff s.g4e).mp hr.packer)
            elements := fun hi => (elements_iff _).mpr ((elements_iff s.g4e).mp (hr.elements hi)) } } }
  | rld =>
    exact { h with
      rld := { h.rld with
        shell := hsh
        noShort := hostChange_noShort hc h.rld.noShort
        running := fun hb => by
          obtain ⟨v, rfl⟩ := hc.busy hb
          obtain ⟨hl, he, hx, hy⟩ := h.rld.running hb
          exact ⟨hl, he, hx, hy⟩ } }

theorem good_shell {s : State} (h : s.Good) (u : UnitId) : (s.shell u).Good s.cfg u := by
  cases u
  · exact h.pfe.shell
  · exact h.lzd.shell
  · exact h.g4e.shell
  · exact h.rld.shell

/-- START goes on, to a good state (44_host_commands.md R292). -/
theorem exec_cmdStart_good {s : State} (h : s.Good) (u : UnitId) : ∃ t, exec (.cmdStart u) s = .next t ∧ t.Good := by
  cases u with
  | pfe => exact ⟨_, rfl, { h with pfe := pfeGood_start h.params h.pfe }⟩
  | lzd => exact ⟨_, rfl, { h with lzd := lzdGood_start h.lzd }⟩
  | g4e => exact ⟨_, rfl, { h with g4e := g4eGood_start h.g4e }⟩
  | rld => exact ⟨_, rfl, { h with rld := rldGood_start h.rld }⟩

theorem good_hardReset {s : State} (h : s.Good) : s.hardReset.Good where
  params := h.params
  pfe :=
    { shell := shellGood_reset ..
      currCanonical := rfl
      priorCanonical := rfl
      currCells := by intro c hc; cases hc
      priorCells := by intro c hc; cases hc
      noShort := ⟨rfl, rfl⟩
      running := by intro hb; cases hb }
  lzd :=
    { shell := shellGood_reset ..
      prefixCanonical := rfl
      suffixCanonical := rfl
      prefixCells := by intro c hc; cases hc
      suffixCells := by intro c hc; cases hc
      shortFlag := by intro hf; cases hf
      running := by intro hb; cases hb }
  g4e :=
    { shell := shellGood_reset ..
      curCanonical := rfl
      refCanonical := rfl
      curCells := by intro c hc; cases hc
      refCells := by intro c hc; cases hc
      noShort := ⟨rfl, rfl⟩
      running := by intro hb; cases hb }
  rld :=
    { shell := shellGood_reset ..
      noShort := ⟨rfl, rfl⟩
      running := by intro hb; cases hb }

/-! ### The host's turn -/

theorem readReg_frame (s : State) (u : UnitId) (i : BitVec 4) :
    ∃ b n, s.readReg u i = { s with busData := b, fresh := n } := by
  unfold State.readReg
  split <;> exact ⟨_, _, rfl⟩

theorem readIn_frame (s : State) (u : UnitId) (a : Nat) : ∃ b n, s.readIn u a = { s with busData := b, fresh := n } := by
  unfold State.readIn
  split <;> exact ⟨_, _, rfl⟩

theorem readOut_frame (s : State) (u : UnitId) (a : Nat) : ∃ b n, s.readOut u a = { s with busData := b, fresh := n } := by
  unfold State.readOut
  split <;> exact ⟨_, _, rfl⟩

theorem writeReg_state (u : UnitId) (sh : Shell) (i : BitVec 4) (v : Word) : (sh.writeReg u i v).state = sh.state := by
  unfold Shell.writeReg
  split_ifs <;> rfl

theorem writeIn_state (n : Nat) (sh : Shell) (a : Nat) (v : Byte) : (sh.writeIn n a v).state = sh.state := by
  unfold Shell.writeIn
  split_ifs <;> rfl

/-- What a host access can do: START, CLEAR, a hardware reset, a write to registers or `IN` of a unit, a read
(44_host_commands.md R290 to R295; 70_reset_and_hazards.md R350). -/
inductive HostTurn (s : State) : HostAction → Result → Prop
  | start (u : UnitId) : HostTurn s (.write u 0 1) (exec (.cmdStart u) s)
  | clear (u : UnitId) : HostTurn s (.write u 0 2) (.next (s.setShell u (s.shell u).clear))
  | hardReset : HostTurn s .hardReset (.next s.hardReset)
  | write (a : HostAction) (u : UnitId) (sh : Shell) (hstate : sh.state = (s.shell u).state)
      (hchange : HostChange (s.shell u) sh) (hgood : (s.shell u).Good s.cfg u → sh.Good s.cfg u) :
      HostTurn s a (.next (s.setShell u sh))
  | read (a : HostAction) (b : Word) (n : Nat) : HostTurn s a (.next { s with busData := b, fresh := n })

theorem hostAct_cases (s : State) (a : HostAction) : HostTurn s a (hostAct a s) := by
  have none : ∀ a, HostTurn s a (.next s) := fun a => .read a s.busData s.fresh
  cases a with
  | write u i v =>
    by_cases hi : i = 0
    · subst hi
      rw [hostAct_ctrl]
      split
      · next h1 => rw [h1]; exact .start u
      · split
        · next h2 => rw [h2]; exact .clear u
        · exact none _
    · rw [hostAct_write s u i v hi]
      exact .write _ u _ (writeReg_state ..) (hostChange_writeReg ..) fun h => shellGood_writeReg h i v
  | read u i =>
    obtain ⟨b, n, h⟩ := readReg_frame s u i
    rw [hostAct_read, h]
    exact .read _ b n
  | writeIn u k v => exact .write _ u _ (writeIn_state ..) (hostChange_writeIn ..) fun h => shellGood_writeIn h k v
  | readIn u k =>
    obtain ⟨b, n, h⟩ := readIn_frame s u k
    rw [hostAct_readIn, h]
    exact .read _ b n
  | writeOut u k v => exact none _
  | readOut u k =>
    obtain ⟨b, n, h⟩ := readOut_frame s u k
    rw [hostAct_readOut, h]
    exact .read _ b n
  | hardReset => exact .hardReset

/-- A host access from a good state goes on, to a good state. -/
theorem hostAct_good {s : State} (h : s.Good) (a : HostAction) : ∃ t, hostAct a s = .next t ∧ t.Good := by
  generalize hr : hostAct a s = r
  have hturn := hr ▸ hostAct_cases s a
  cases hturn with
  | start u => exact exec_cmdStart_good h u
  | clear u => exact ⟨_, rfl, good_setShell h u (shellGood_clear (good_shell h u)) (hostChange_clear _)⟩
  | hardReset => exact ⟨_, rfl, good_hardReset h⟩
  | write a u sh hstate hchange hgood => exact ⟨_, rfl, good_setShell h u (hgood (good_shell h u)) hchange⟩
  | read a b n => exact ⟨_, rfl, { h with }⟩

theorem hostStep_good {s : State} (h : s.Good) : ∃ t, hostStep s = .next t ∧ t.Good := by
  cases hq : s.hostQ with
  | nil => exact ⟨s, hostStep_nil s hq, h⟩
  | cons a q =>
    rw [hostStep_cons s a q hq]
    exact hostAct_good (s := { s with hostQ := q }) { h with } a

/-- Taking a turn keeps what holds of the units. -/
theorem takeTurn_good {s : State} (h : s.Good) : s.takeTurn.2.Good := by
  rw [takeTurn_frame]
  exact { h with }

/-- Settles O8: whoever's turn it is, the turn goes on from a good state to a good state. -/
theorem stepKeepsGood : Obligations.StepKeepsGood := by
  unfold Obligations.StepKeepsGood
  intro s h
  have h1 := takeTurn_good h
  rw [step_eq]
  cases s.takeTurn.1 with
  | host => exact hostStep_good h1
  | unit u => exact unitStep_good h1 u

/-! ### What moves STATE -/

/-- A turn of G4E's unit changes nothing else, and does not end in IDLE. -/
def G4eRuns (s t : State) : Prop := t = { s with g4e := t.g4e } ∧ (s.g4e.sh.state ≠ .idle → t.g4e.sh.state ≠ .idle)

theorem g4eRuns_refl (s : State) : G4eRuns s s := ⟨rfl, id⟩

theorem g4eRuns_trans {s t v : State} (h1 : G4eRuns s t) (h2 : G4eRuns t v) : G4eRuns s v := by
  refine ⟨?_, h2.2 ∘ h1.2⟩
  rw [h2.1, h1.1]

theorem emitRun_runs {w : RunWord} {s t : State} (h : emitRun w s = .next t) : G4eRuns s t := by
  cases hc : runCode s.cfg w with
  | none =>
    unfold emitRun G4e.packRun at h
    rw [hc] at h
    cases h
  | some c =>
    rw [emitRun_eq w s c hc] at h
    obtain rfl := Host.Outcome.next.inj h
    exact ⟨rfl, putResult_not_idle (putbits_result ..)⟩

theorem drain_runs : ∀ (ws : List RunWord) {s t : State}, drain ws s = .next t → G4eRuns s t := by
  intro ws
  induction ws with
  | nil => intro s t h; obtain rfl := Host.Outcome.next.inj h; exact g4eRuns_refl _
  | cons w ws ih =>
    intro s t h
    obtain ⟨i, hi, hexec⟩ := exec_runWord w
    rw [drain, hi] at h
    dsimp only at h
    rw [hexec] at h
    cases he : emitRun w { s with g4e := { s.g4e with pend := ws } } with
    | next v =>
      have hfirst := emitRun_runs he
      have hw : G4eRuns s v := hfirst
      rw [he] at h
      dsimp only at h
      split at h
      · exact g4eRuns_trans hw (ih h)
      · obtain rfl := Host.Outcome.next.inj h
        exact hw
    | fault f => rw [he] at h; cases h
    | refused r => rw [he] at h; cases h

theorem modeResult_not_idle {cfg : Config} {g t : G4e} (h : ModeResult cfg g t) (hb : g.sh.state ≠ .idle) :
    t.sh.state ≠ .idle := by
  cases h with
  | mk c x ws k hk =>
    have hput := putResult_not_idle (putbits_result cfg c g) hb
    cases hp : g.putbits cfg c with
    | error g1 => rw [hp] at hput; exact hput
    | ok g1 =>
      rw [hp] at hput
      rw [thenDo_ok, hk, afterMode_sh]
      exact hput

theorem runMode_runs {s t : State} (h : runMode s.g4e.mode s = .next t) : G4eRuns s t := by
  obtain ⟨g, he, hmode⟩ := exec_mode s
  have hfirst : G4eRuns s { s with g4e := g } := ⟨rfl, modeResult_not_idle hmode⟩
  rw [runMode_next s _ _ he] at h
  split at h
  · exact g4eRuns_trans hfirst (drain_runs _ h)
  · obtain rfl := Host.Outcome.next.inj h
    exact hfirst

theorem thenDo_not_idle {r : Except G4e G4e} {k : G4e → G4e} (hr : (packed r).sh.state ≠ .idle)
    (hk : ∀ g1, g1.sh.state ≠ .idle → (k g1).sh.state ≠ .idle) : (G4e.thenDo r k).sh.state ≠ .idle := by
  cases r with
  | error g1 => exact hr
  | ok g1 => exact hk g1 hr

theorem endOfBlock_not_idle {cfg : Config} {g : G4e} (hb : g.sh.state ≠ .idle) :
    (g.endOfBlock cfg).sh.state ≠ .idle := by
  refine thenDo_not_idle (putResult_not_idle (putbits_result ..) hb) fun g1 h1 => ?_
  refine thenDo_not_idle (putResult_not_idle (putbits_result ..) h1) fun g2 h2 => ?_
  refine thenDo_not_idle (putResult_not_idle (flush_result cfg g2) h2) fun g3 _ => ?_
  simp

theorem openRow_not_idle {cfg : Config} {g t : G4e} (h : g.openRow cfg = .ok t) (hb : g.sh.state ≠ .idle) :
    t.sh.state ≠ .idle := by
  unfold G4e.openRow at h
  split_ifs at h
  · obtain rfl := Except.ok.inj h
    simp
  · obtain rfl := Except.ok.inj h
    exact hb

theorem g4eStep_runs {s t : State} (h : g4eStep s = .next t) : G4eRuns s t := by
  unfold g4eStep at h
  split at h
  · exact drain_runs _ h
  · split at h
    · exact runMode_runs h
    · split at h
      · obtain rfl := Host.Outcome.next.inj h
        exact ⟨rfl, endOfBlock_not_idle⟩
      · split at h
        · obtain ⟨g, hg, rfl⟩ := (settle_eq_next _ _ _).mp h
          exact ⟨rfl, openRow_not_idle hg⟩
        · cases h

/-! ### A unit put in place leaves the others -/

theorem shell_with_pfe (s : State) (p : Pfe) : ∀ v, v ≠ .pfe → ({ s with pfe := p } : State).shell v = s.shell v := by
  intro v hv
  cases v
  case pfe => exact absurd rfl hv
  all_goals rfl

theorem shell_with_lzd (s : State) (l : Lzd) : ∀ v, v ≠ .lzd → ({ s with lzd := l } : State).shell v = s.shell v := by
  intro v hv
  cases v
  case lzd => exact absurd rfl hv
  all_goals rfl

theorem shell_with_g4e (s : State) (g : G4e) : ∀ v, v ≠ .g4e → ({ s with g4e := g } : State).shell v = s.shell v := by
  intro v hv
  cases v
  case g4e => exact absurd rfl hv
  all_goals rfl

theorem shell_with_rld (s : State) (r : Rld) : ∀ v, v ≠ .rld → ({ s with rld := r } : State).shell v = s.shell v := by
  intro v hv
  cases v
  case rld => exact absurd rfl hv
  all_goals rfl

/-- A BUSY unit's turn leaves the other units' registers and buffers, and does not end in IDLE. -/
theorem unitStep_busy {s t : State} {u : UnitId} (hb : (s.shell u).state = .busy) (h : unitStep u s = .next t) :
    (∀ v, v ≠ u → t.shell v = s.shell v) ∧ (t.shell u).state ≠ .idle := by
  have hidle : (s.shell u).state ≠ .idle := by rw [hb]; decide
  cases u with
  | pfe =>
    obtain ⟨r, hs, hr⟩ := pfeStep_cases s
    rw [unitStep_pfe s hb, hs] at h
    obtain ⟨p, rfl, rfl⟩ := (settle_eq_next _ _ _).mp h
    exact ⟨shell_with_pfe s _, pfeTurn_not_idle hidle hr⟩
  | lzd =>
    obtain ⟨r, hs, hr⟩ := lzdStep_cases s
    rw [unitStep_lzd s hb, hs] at h
    obtain ⟨l, rfl, rfl⟩ := (settle_eq_next _ _ _).mp h
    exact ⟨shell_with_lzd s _, lzdTurn_not_idle hidle hr⟩
  | g4e =>
    rw [unitStep_g4e s hb] at h
    obtain ⟨hframe, hrun⟩ := g4eStep_runs h
    exact ⟨by rw [hframe]; exact shell_with_g4e s _, hrun hidle⟩
  | rld =>
    obtain ⟨r, hs, hr⟩ := rldStep_cases s
    rw [unitStep_rld s hb, hs] at h
    obtain ⟨q, rfl, rfl⟩ := (settle_eq_next _ _ _).mp h
    exact ⟨shell_with_rld s _, rldTurn_not_idle hidle hr⟩

/-- A unit's turn moves its own STATE only, from BUSY to DONE or FAULT (10_state.md R23). -/
theorem unitStep_moves {s t : State} {u v : UnitId} (h : unitStep u s = .next t)
    (hne : (t.shell v).state ≠ (s.shell v).state) :
    v = u ∧ (s.shell v).state = .busy ∧ ((t.shell v).state = .done ∨ (t.shell v).state = .fault) := by
  by_cases hb : (s.shell u).state = .busy
  · obtain ⟨hother, hidle⟩ := unitStep_busy hb h
    by_cases hv : v = u
    · subst hv
      refine ⟨rfl, hb, ?_⟩
      rw [hb] at hne
      cases hs : (t.shell v).state with
      | idle => exact absurd hs hidle
      | busy => exact absurd hs hne
      | done => exact .inl rfl
      | fault => exact .inr rfl
    · exact absurd (congrArg Shell.state (hother v hv)) hne
  · rw [unitStep_idle u s hb] at h
    obtain rfl := Host.Outcome.next.inj h
    exact absurd rfl hne

/-- The common form of START: from IDLE the initialisation or the fault `E_CFG`, else nothing (44_host_commands.md R292). -/
theorem start_state {α : Type} (shell : α → Shell) (x init fault : α) (legal : Bool) (hi : (shell init).state = .busy)
    (hf : (shell fault).state = .fault) :
    let y := if (shell x).state = .idle then (if legal then init else fault) else x
    shell y = shell x ∨ ((shell x).state = .idle ∧ ((shell y).state = .busy ∨ (shell y).state = .fault)) := by
  dsimp only
  split_ifs with hidle
  · exact .inr ⟨hidle, .inl hi⟩
  · exact .inr ⟨hidle, .inr hf⟩
  · exact .inl rfl

/-- START from IDLE ends in BUSY or FAULT, and does nothing elsewhere (R292). -/
theorem exec_cmdStart_state (s : State) (u : UnitId) :
    ∃ t, exec (.cmdStart u) s = .next t ∧ (∀ v, v ≠ u → t.shell v = s.shell v) ∧
      (t.shell u = s.shell u ∨
        ((s.shell u).state = .idle ∧ ((t.shell u).state = .busy ∨ (t.shell u).state = .fault))) := by
  cases u with
  | pfe =>
    exact ⟨_, rfl, shell_with_pfe s _, start_state Pfe.sh s.pfe _ _ _ rfl rfl⟩
  | lzd =>
    exact ⟨_, rfl, shell_with_lzd s _, start_state Lzd.sh s.lzd _ _ _ rfl rfl⟩
  | g4e =>
    exact ⟨_, rfl, shell_with_g4e s _, start_state G4e.sh s.g4e _ _ _ rfl rfl⟩
  | rld =>
    exact ⟨_, rfl, shell_with_rld s _, start_state Rld.sh s.rld _ _ _ rfl rfl⟩

/-- CLEAR moves STATE from DONE or FAULT to IDLE only (R293). -/
theorem clear_moves {sh : Shell} (h : sh.clear.state ≠ sh.state) :
    (sh.state = .done ∨ sh.state = .fault) ∧ sh.clear.state = .idle := by
  unfold Shell.clear at h ⊢
  cases hs : sh.state <;> simp_all

theorem hardReset_state (s : State) (u : UnitId) : (s.hardReset.shell u).state = .idle := by cases u <;> rfl

/-- A host access moves STATE by START, CLEAR or a hardware reset only (10_state.md R23). -/
theorem hostAct_moves {s t : State} {a : HostAction} {u : UnitId} (h : hostAct a s = .next t)
    (hne : (t.shell u).state ≠ (s.shell u).state) :
    ((s.shell u).state = .idle ∧ ((t.shell u).state = .busy ∨ (t.shell u).state = .fault) ∧ a = .write u 0 1) ∨
      (((s.shell u).state = .done ∨ (s.shell u).state = .fault) ∧ (t.shell u).state = .idle ∧ a = .write u 0 2) ∨
      ((t.shell u).state = .idle ∧ a = .hardReset) := by
  generalize hr : Host.Outcome.next t = r at h
  have hturn := h ▸ hostAct_cases s a
  cases hturn with
  | start v =>
    obtain ⟨t', ht', hother, hstart⟩ := exec_cmdStart_state s v
    obtain rfl := Host.Outcome.next.inj (hr.trans ht')
    by_cases hv : u = v
    · subst hv
      rcases hstart with hsame | ⟨hidle, hmove⟩
      · exact absurd (congrArg Shell.state hsame) hne
      · exact .inl ⟨hidle, hmove, rfl⟩
    · exact absurd (congrArg Shell.state (hother u hv)) hne
  | clear v =>
    obtain rfl := Host.Outcome.next.inj hr
    by_cases hv : u = v
    · subst hv
      rw [shell_setShell_self] at hne ⊢
      obtain ⟨hfrom, hto⟩ := clear_moves hne
      exact .inr (.inl ⟨hfrom, hto, rfl⟩)
    · rw [shell_setShell, if_neg hv] at hne
      exact absurd rfl hne
  | hardReset =>
    obtain rfl := Host.Outcome.next.inj hr
    exact .inr (.inr ⟨hardReset_state s u, rfl⟩)
  | write a v sh hstate hchange hgood =>
    obtain rfl := Host.Outcome.next.inj hr
    refine absurd ?_ hne
    rw [shell_setShell]
    split
    · next hv => rw [hv, hstate]
    · rfl
  | read a b n =>
    obtain rfl := Host.Outcome.next.inj hr
    exact absurd (by cases u <;> rfl) hne

/-- Settles O56: a unit's turn moves its own STATE out of BUSY, the host's turn moves STATE by its next access. -/
theorem stateMoves : Obligations.StateMoves := by
  unfold Obligations.StateMoves
  intro s t u h hne
  rw [step_eq] at h
  rw [← takeTurn_shell s u] at hne ⊢
  rw [← takeTurn_hostQ s]
  cases ha : s.takeTurn.1 with
  | unit v =>
    rw [ha] at h
    obtain ⟨rfl, hb, hend⟩ := unitStep_moves h hne
    exact .inr (.inl ⟨hb, hend, rfl⟩)
  | host =>
    rw [ha] at h
    cases hq : s.takeTurn.2.hostQ with
    | nil =>
      obtain rfl := Host.Outcome.next.inj ((hostStep_nil _ hq).symm.trans h)
      exact absurd rfl hne
    | cons a q =>
      have hshell : ({ s.takeTurn.2 with hostQ := q } : State).shell u = s.takeTurn.2.shell u := by cases u <;> rfl
      rw [← hshell] at hne ⊢
      rcases hostAct_moves ((hostStep_cons _ a q hq).symm.trans h) hne with
        ⟨hi, hmove, rfl⟩ | ⟨hfrom, hto, rfl⟩ | ⟨hto, rfl⟩
      · exact .inl ⟨hi, hmove, rfl, rfl⟩
      · exact .inr (.inr (.inl ⟨hfrom, hto, rfl, rfl⟩))
      · exact .inr (.inr (.inr ⟨hto, rfl, rfl⟩))

end Sys2Proof.Proofs
end

section
/-! PROOFS. What a unit's turn leaves unchanged (10_state.md section 2, 20_memory.md R74, R84; 60_exceptions.md R318, R335,
R336). -/

namespace Sys2Proof.Proofs

open Sys2Proof.Machine Sys2Proof.Laws

/-! ### What the host alone writes -/

/-- From `a` to `b` a unit has written its status fields, `IN_POS`, `OUT_LEN` and `OUT` only: `IEN`, `IN_LEN`, the configuration
and `IN` are as the host left them (10_state.md section 2; 20_memory.md R84). -/
def HostPartKept (a b : Shell) : Prop :=
  b = { a with
    state := b.state
    err := b.err
    flags := b.flags
    inPos := b.inPos
    outLen := b.outLen
    errPos := b.errPos
    outBuf := b.outBuf }

theorem hostPartKept_refl (a : Shell) : HostPartKept a a := rfl

theorem hostPartKept_trans {a b c : Shell} (h1 : HostPartKept a b) (h2 : HostPartKept b c) : HostPartKept a c := by
  unfold HostPartKept at *
  rw [h2, h1]

theorem hostPartKept_raise {a b : Shell} (h : HostPartKept a b) (e : ErrCode) (p : Word) : HostPartKept a (b.raise e p) :=
  hostPartKept_trans h rfl

theorem hostPartKept_finish {a b : Shell} (h : HostPartKept a b) (f : Flags) : HostPartKept a (b.finish f) :=
  hostPartKept_trans h rfl

theorem hostPartKept_advance {a b : Shell} (h : HostPartKept a b) (n : Nat) : HostPartKept a (b.advance n) :=
  hostPartKept_trans h rfl

/-! ### PFE -/

theorem endScanline_hostPart (p : Pfe) : HostPartKept p.sh p.endScanline.sh := by
  have hnext : HostPartKept p.sh (nextRow p).sh := hostPartKept_advance (hostPartKept_refl _) _
  rw [endScanline_eq]
  split
  · cases hn : (nextRow p).passes[(nextRow p).nextPass (nextRow p).pass.toNat]? with
    | some g => rw [endPass_some _ _ g rfl hn]; exact hnext
    | none => rw [endPass_none _ _ rfl hn]; exact hostPartKept_finish hnext _
  · exact hnext

theorem pfeTurn_hostPart {cfg : Config} {p q : Pfe} (hr : PfeTurn cfg p (.ok q)) : HostPartKept p.sh q.sh := by
  generalize hq : Except.ok q = r at hr
  cases hr with
  | fetchFault e he =>
    obtain rfl := Except.ok.inj hq
    exact hostPartKept_raise (hostPartKept_refl _) _ _
  | scanline f raw hraw hin =>
    obtain ⟨-, -, g, sh, -, hp, rfl⟩ := (scanline_eq_ok cfg f raw p q).mp hq.symm
    have hplaced : HostPartKept p.sh sh := by
      rw [place_frame hp, reconstruct_frame]
      rfl
    exact hostPartKept_trans hplaced (endScanline_hostPart { p.reconstruct f 0 raw with sh := sh })

/-! ### RLD -/

theorem putRun_hostPart {cfg : Config} {px : List Byte} {len : Nat} {r q : Rld} (h : r.putRun cfg px len = .ok q) :
    HostPartKept r.sh q.sh := by
  rcases (putRun_eq_ok cfg px len r q).mp h with ⟨-, rfl⟩ | ⟨-, -, rfl⟩
  · exact hostPartKept_raise (hostPartKept_refl _) _ _
  · rfl

theorem rldTurn_hostPart {cfg : Config} {r q : Rld} (hr : RldTurn cfg r (.ok q)) : HostPartKept r.sh q.sh := by
  generalize hq : Except.ok q = a at hr
  cases hr with
  | fetchFault =>
    obtain rfl := Except.ok.inj hq
    exact hostPartKept_raise (hostPartKept_refl _) _ _
  | run px len hin heven hpx => exact putRun_hostPart hq.symm
  | eol hin =>
    obtain rfl := Except.ok.inj hq
    exact hostPartKept_advance (hostPartKept_refl _) 2
  | eob hin =>
    obtain rfl := Except.ok.inj hq
    exact hostPartKept_finish (hostPartKept_advance (hostPartKept_refl _) 2) _
  | delta dx dy hin =>
    obtain rfl := Except.ok.inj hq
    exact hostPartKept_advance (hostPartKept_refl _) 4

/-! ### LZD -/

section
variable {cfg : Config} {l m : Lzd}

theorem append_hostPart {str : List Byte} (h : l.append cfg str = .ok m) : HostPartKept l.sh m.sh := by
  obtain ⟨-, rfl⟩ := (append_eq_ok cfg str l m).mp h
  rfl

theorem emit_hostPart {c : BitVec 12} {str : List Byte} (h : l.emit cfg c str = .ok m) : HostPartKept l.sh m.sh := by
  cases str with
  | nil => cases h
  | cons f str =>
    obtain ⟨l1, h1, rfl⟩ := (emit_eq_ok cfg c f str l m).mp h
    have happended := append_hostPart h1
    rw [addEntry_frame]
    exact happended

theorem lzdElement_hostPart (hr : LzdElement cfg l (.ok m)) : HostPartKept l.sh m.sh := by
  generalize hm : Except.ok m = r at hr
  cases hr with
  | clear => obtain rfl := Except.ok.inj hm; exact hostPartKept_refl _
  | eoi => obtain rfl := Except.ok.inj hm; exact hostPartKept_finish (hostPartKept_refl _) _
  | illegal => obtain rfl := Except.ok.inj hm; exact hostPartKept_raise (hostPartKept_refl _) _ _
  | lit c hc =>
    rw [Lzd.lit] at hm
    split at hm
    · cases hm
    · next l1 h1 =>
      have happended := append_hostPart h1
      obtain rfl := Except.ok.inj hm
      exact happended
  | ref c hv hc =>
    rw [Lzd.ref] at hm
    split at hm
    · cases hm
    · exact emit_hostPart hm.symm
  | kwk hv ha =>
    rw [Lzd.kwk] at hm
    split at hm
    · cases hm
    · exact emit_hostPart hm.symm

theorem lzdTurn_hostPart (hr : LzdTurn cfg l (.ok m)) : HostPartKept l.sh m.sh := by
  generalize hm : Except.ok m = r at hr
  cases hr with
  | full => obtain rfl := Except.ok.inj hm; exact hostPartKept_finish (hostPartKept_refl _) _
  | exhausted hout hf =>
    obtain rfl := Except.ok.inj hm
    have hfill : HostPartKept l.sh (l.fill 2).1.sh := by rw [fill_frame]; rfl
    exact hostPartKept_finish hfill _
  | element hf r hr =>
    subst hm
    have hfetch : HostPartKept l.sh (l.fill 2).1.take.2.sh := by rw [fetch_frame]; rfl
    exact hostPartKept_trans hfetch (lzdElement_hostPart hr)

end

/-! ### G4E -/

section
variable {cfg : Config} {g : G4e} {a : Shell}

theorem putResult_hostPart (h : HostPartKept a g.sh) {r : Except G4e G4e} (hr : PutResult cfg g r) :
    HostPartKept a (packed r).sh := by
  cases hr with
  | sent acc free n m hout hpacker => exact hostPartKept_trans h rfl
  | overflow acc free n m hout => exact hostPartKept_trans h rfl

/-- What follows a word that was packed, if it keeps the host's part, keeps it from the word on. -/
theorem thenDo_hostPart (h : HostPartKept a g.sh) {r : Except G4e G4e} (hr : PutResult cfg g r) {k : G4e → G4e}
    (hk : ∀ g1, HostPartKept a g1.sh → HostPartKept a (k g1).sh) : HostPartKept a (G4e.thenDo r k).sh := by
  have hput := putResult_hostPart h hr
  cases r with
  | error g1 => exact hput
  | ok g1 => exact hk g1 hput

theorem modeResult_hostPart {t : G4e} (hr : ModeResult cfg g t) : HostPartKept g.sh t.sh := by
  cases hr with
  | mk c x ws k hk =>
    refine thenDo_hostPart (hostPartKept_refl _) (putbits_result cfg c g) fun g1 h1 => ?_
    rw [hk, afterMode_sh]
    exact h1

theorem endOfBlock_hostPart (cfg : Config) (g : G4e) : HostPartKept g.sh (g.endOfBlock cfg).sh := by
  refine thenDo_hostPart (hostPartKept_refl _) (putbits_result ..) fun g1 h1 => ?_
  refine thenDo_hostPart h1 (putbits_result ..) fun g2 h2 => ?_
  refine thenDo_hostPart h2 (flush_result cfg g2) fun g3 h3 => ?_
  exact hostPartKept_finish h3 _

theorem openRow_hostPart {t : G4e} (h : g.openRow cfg = .ok t) : HostPartKept g.sh t.sh := by
  unfold G4e.openRow at h
  split_ifs at h
  · obtain rfl := Except.ok.inj h
    exact hostPartKept_raise (hostPartKept_refl _) _ _
  · obtain rfl := Except.ok.inj h
    exact hostPartKept_advance (hostPartKept_refl _) _

end

theorem emitRun_hostPart {w : RunWord} {s t : State} (h : emitRun w s = .next t) : HostPartKept s.g4e.sh t.g4e.sh := by
  cases hc : runCode s.cfg w with
  | none =>
    unfold emitRun G4e.packRun at h
    rw [hc] at h
    cases h
  | some c =>
    rw [emitRun_eq w s c hc] at h
    obtain rfl := Host.Outcome.next.inj h
    exact putResult_hostPart (hostPartKept_refl _) (putbits_result ..)

theorem drain_hostPart : ∀ (ws : List RunWord) {s t : State}, drain ws s = .next t → HostPartKept s.g4e.sh t.g4e.sh := by
  intro ws
  induction ws with
  | nil => intro s t h; obtain rfl := Host.Outcome.next.inj h; exact hostPartKept_refl _
  | cons w ws ih =>
    intro s t h
    obtain ⟨i, hi, hexec⟩ := exec_runWord w
    cases he : emitRun w { s with g4e := { s.g4e with pend := ws } } with
    | next v =>
      have hemit := emitRun_hostPart he
      have hword : HostPartKept s.g4e.sh v.g4e.sh := hemit
      rw [drain_cons s w ws i v hi ((hexec _).trans he)] at h
      split at h
      · exact hostPartKept_trans hword (ih h)
      · obtain rfl := Host.Outcome.next.inj h
        exact hword
    | fault f => simp [drain, hi, hexec, he] at h
    | refused r => simp [drain, hi, hexec, he] at h

theorem runMode_hostPart {s t : State} (h : runMode s.g4e.mode s = .next t) : HostPartKept s.g4e.sh t.g4e.sh := by
  obtain ⟨g, he, hmode⟩ := exec_mode s
  have hfirst := modeResult_hostPart hmode
  rw [runMode_next s _ _ he] at h
  split at h
  · exact hostPartKept_trans hfirst (drain_hostPart _ h)
  · obtain rfl := Host.Outcome.next.inj h
    exact hfirst

theorem g4eStep_hostPart {s t : State} (h : g4eStep s = .next t) : HostPartKept s.g4e.sh t.g4e.sh := by
  unfold g4eStep at h
  split_ifs at h
  · exact drain_hostPart _ h
  · exact runMode_hostPart h
  · obtain rfl := Host.Outcome.next.inj h
    exact endOfBlock_hostPart ..
  · obtain ⟨g, hg, rfl⟩ := (settle_eq_next _ _ _).mp h
    exact openRow_hostPart hg

/-! ### The turn in the machine -/

/-- The state after a unit's own turn: that unit replaced by one with the same host's part, all else the same. -/
inductive OwnTurn (s : State) : UnitId → State → Prop
  | pfe (p : Pfe) (h : HostPartKept s.pfe.sh p.sh) : OwnTurn s .pfe { s with pfe := p }
  | lzd (l : Lzd) (h : HostPartKept s.lzd.sh l.sh) : OwnTurn s .lzd { s with lzd := l }
  | g4e (g : G4e) (h : HostPartKept s.g4e.sh g.sh) : OwnTurn s .g4e { s with g4e := g }
  | rld (r : Rld) (h : HostPartKept s.rld.sh r.sh) : OwnTurn s .rld { s with rld := r }

/-- A unit's turn that goes on is its own turn, BUSY or not. -/
theorem unitStep_ownTurn {s t : State} {u : UnitId} (h : unitStep u s = .next t) : OwnTurn s u t := by
  by_cases hb : (s.shell u).state = .busy
  · cases u with
    | pfe =>
      obtain ⟨r, hs, hr⟩ := pfeStep_cases s
      rw [unitStep_pfe s hb, hs] at h
      obtain ⟨p, rfl, rfl⟩ := (settle_eq_next _ _ _).mp h
      exact .pfe p (pfeTurn_hostPart hr)
    | lzd =>
      obtain ⟨r, hs, hr⟩ := lzdStep_cases s
      rw [unitStep_lzd s hb, hs] at h
      obtain ⟨l, rfl, rfl⟩ := (settle_eq_next _ _ _).mp h
      exact .lzd l (lzdTurn_hostPart hr)
    | g4e =>
      rw [unitStep_g4e s hb] at h
      obtain ⟨hframe, -⟩ := g4eStep_runs h
      rw [hframe]
      exact .g4e t.g4e (g4eStep_hostPart h)
    | rld =>
      obtain ⟨r, hs, hr⟩ := rldStep_cases s
      rw [unitStep_rld s hb, hs] at h
      obtain ⟨q, rfl, rfl⟩ := (settle_eq_next _ _ _).mp h
      exact .rld q (rldTurn_hostPart hr)
  · rw [unitStep_idle u s hb] at h
    obtain rfl := Host.Outcome.next.inj h
    cases u with
    | pfe => exact .pfe s.pfe (hostPartKept_refl _)
    | lzd => exact .lzd s.lzd (hostPartKept_refl _)
    | g4e => exact .g4e s.g4e (hostPartKept_refl _)
    | rld => exact .rld s.rld (hostPartKept_refl _)

/-- Settles O54: a turn that goes on is the unit's own turn, and a unit that is not BUSY does nothing in it. -/
theorem unitTouchesOnlyItself : Obligations.UnitTouchesOnlyItself := by
  unfold Obligations.UnitTouchesOnlyItself
  intro s t u h
  have hidle : (s.shell u).state ≠ .busy → t = s := fun hb =>
    (Host.Outcome.next.inj ((unitStep_idle u s hb).symm.trans h)).symm
  cases unitStep_ownTurn h with
  | pfe p hkept =>
    exact ⟨shell_with_pfe s p, fun hu => absurd rfl hu, fun _ => rfl, fun _ => rfl, fun _ => rfl, rfl, hkept, hidle⟩
  | lzd l hkept =>
    exact ⟨shell_with_lzd s l, fun _ => rfl, fun hu => absurd rfl hu, fun _ => rfl, fun _ => rfl, rfl, hkept, hidle⟩
  | g4e g hkept =>
    exact ⟨shell_with_g4e s g, fun _ => rfl, fun _ => rfl, fun hu => absurd rfl hu, fun _ => rfl, rfl, hkept, hidle⟩
  | rld r hkept =>
    exact ⟨shell_with_rld s r, fun _ => rfl, fun _ => rfl, fun _ => rfl, fun hu => absurd rfl hu, rfl, hkept, hidle⟩

end Sys2Proof.Proofs
end

section
/-! PROOFS. The five encodings: decoding what was encoded, the RLD command table and the code classes of LZD
(30_encoding.md R101 to R116). -/

namespace Sys2Proof.Proofs

open Sys2Proof.Laws

/-! ### PFE records (30_encoding.md R101, R102) -/

theorem filterOf_byte (f : Filter) : filterOf f.byte = some f := by cases f <;> rfl

/-- A record of a whole line is read with nothing left over. -/
theorem decode_filter (f : Filter) (raw : List Byte) :
    decode (.scan raw.length) (.bytes (f.byte :: raw)) = .ok (f.instr raw) := by
  refine (whole_eq_ok _ _).mpr ?_
  rw [decodeScan, filterOf_byte]
  simp

/-! ### RLD commands (30_encoding.md R103 to R108) -/

theorem decodeRle_run (m : Bool) {b0 : Byte} (h : b0 ≠ 0) (b1 : Byte) (rest : List Byte) :
    decodeRle m (b0 :: b1 :: rest) =
      .ok (if m then .rle4Run b0 (hiNibble b1) (loNibble b1) else .rle8Run b0 b1, rest) := by
  unfold decodeRle
  exact if_pos h

theorem decodeRle_eol (m : Bool) (rest : List Byte) : decodeRle m (0 :: 0 :: rest) = .ok (.rleEol, rest) := rfl

theorem decodeRle_eob (m : Bool) (rest : List Byte) : decodeRle m (0 :: 1 :: rest) = .ok (.rleEob, rest) := rfl

theorem decodeRle_delta (m : Bool) (dx dy : Byte) (rest : List Byte) :
    decodeRle m (0 :: 2 :: dx :: dy :: rest) = .ok (.rleDelta dx dy, rest) := rfl

/-- An absolute run takes its data bytes and skips the pad (R106, R107, 43_bmp_rle.md R271). -/
theorem decodeRle_abs (m : Bool) {n : Byte} (hn : 3 ≤ n.toNat) {rest : List Byte}
    (hlen : absDataBytes m n.toNat + padBytes (absDataBytes m n.toNat) ≤ rest.length) :
    decodeRle m (0 :: n :: rest) =
      .ok (if m then .rle4Abs n (rest.take (absDataBytes m n.toNat)) else .rle8Abs n (rest.take (absDataBytes m n.toNat)),
        rest.drop (absDataBytes m n.toNat + padBytes (absDataBytes m n.toNat))) := by
  have ne : ∀ v : Byte, v.toNat < 3 → n ≠ v := by rintro v hv rfl; omega
  unfold decodeRle
  dsimp only
  rw [if_neg (not_not.mpr rfl), if_neg (ne 0 (by decide)), if_neg (ne 1 (by decide)), if_neg (ne 2 (by decide)),
    if_neg (Nat.not_lt.mpr hlen)]

/-- The data of an absolute run and its pad byte are read back whole. -/
theorem decode_absBytes (m : Bool) {n : Byte} (hn : 3 ≤ n.toNat) {d : List Byte} (hd : d.length = absDataBytes m n.toNat) :
    decode (.rle m) (.bytes (absBytes n d)) = .ok (if m then .rle4Abs n d else .rle8Abs n d) := by
  refine (whole_eq_ok _ _).mpr ?_
  rw [absBytes, decodeRle_abs m hn (by simp [hd]), ← hd, List.take_left' rfl, List.drop_of_length_le (by simp)]

theorem hiNibble_nibbles (h l : BitVec 4) : hiNibble (nibbles h l) = h := by
  unfold hiNibble nibbles
  exact BitVec.extractLsb'_append_eq_left

theorem loNibble_nibbles (h l : BitVec 4) : loNibble (nibbles h l) = l := by
  unfold loNibble nibbles
  exact BitVec.extractLsb'_append_eq_right

theorem decode_encode_rle {m : Bool} {i : Instr} (h : wf (.rle m) i = true) :
    ∃ c, encode (.rle m) i = some c ∧ decode (.rle m) c = .ok i := by
  cases m with
  | false =>
    obtain ⟨n, v, rfl, hn⟩ | rfl | rfl | ⟨dx, dy, rfl⟩ | ⟨n, d, rfl, hn, hd⟩ := wf_rle8 h
    · exact ⟨_, encode_rle8Run n v, (whole_eq_ok _ _).mpr (decodeRle_run false hn v [])⟩
    · exact ⟨_, encode_rleEol false, rfl⟩
    · exact ⟨_, encode_rleEob false, rfl⟩
    · exact ⟨_, encode_rleDelta false dx dy, rfl⟩
    · exact ⟨_, encode_rle8Abs n d, decode_absBytes false hn hd⟩
  | true =>
    obtain ⟨n, a, b, rfl, hn⟩ | rfl | rfl | ⟨dx, dy, rfl⟩ | ⟨n, d, rfl, hn, hd⟩ := wf_rle4 h
    · refine ⟨_, encode_rle4Run n a b, (whole_eq_ok _ _).mpr ((decodeRle_run true hn _ []).trans ?_)⟩
      rw [hiNibble_nibbles, loNibble_nibbles]
      rfl
    · exact ⟨_, encode_rleEol true, rfl⟩
    · exact ⟨_, encode_rleEob true, rfl⟩
    · exact ⟨_, encode_rleDelta true dx dy, rfl⟩
    · exact ⟨_, encode_rle4Abs n d, decode_absBytes true hn hd⟩

/-! ### LZW code classes (30_encoding.md R109 to R111) -/

theorem lzwCxOk_iff (x : LzwCx) :
    x.ok = true ↔ 2 ≤ x.n ∧ x.n ≤ 8 ∧ x.n < x.codeSize ∧ x.codeSize ≤ 12 ∧ x.firstFree ≤ x.avail ∧ x.avail ≤ 4096 := by
  simp only [LzwCx.ok, Bool.and_eq_true, decide_eq_true_eq, and_assoc]

theorem isRef_iff (x : LzwCx) (c : Nat) :
    x.isRef c = true ↔ c < x.clear ∨ (x.firstFree ≤ c ∧ c < x.avail) := by
  simp only [LzwCx.isRef, Bool.or_eq_true, Bool.and_eq_true, decide_eq_true_eq]

theorem isIllegal_iff (x : LzwCx) (c : Nat) :
    x.isIllegal c = true ↔ if x.oldValid then x.avail < c else x.eoi < c := by
  unfold LzwCx.isIllegal
  split <;> exact decide_eq_true_iff

section
variable {x : LzwCx} {c : BitVec 12}

theorem classify_clear (h : c.toNat = x.clear) : classify x c = .lzwClear := if_pos h

theorem classify_eoi (h : c.toNat = x.eoi) : classify x c = .lzwEoi := by
  have hne : c.toNat ≠ x.clear := h ▸ Nat.succ_ne_self _
  rw [classify, if_neg hne, if_pos h]

theorem classify_lit (hv : x.oldValid = false) (h : c.toNat < x.clear) : classify x c = .lzwLit c := by
  have heoi : x.eoi = x.clear + 1 := rfl
  rw [classify, if_neg (by omega), if_neg (by omega), if_neg (by simp [hv]), if_pos h]

theorem classify_ref (hv : x.oldValid = true) (h : x.isRef c.toNat = true) : classify x c = .lzwRef c := by
  have heoi : x.eoi = x.clear + 1 := rfl
  have hfree : x.firstFree = x.clear + 2 := rfl
  have hc := (isRef_iff x c.toNat).mp h
  rw [classify, if_neg (by omega), if_neg (by omega), if_pos hv, if_pos h]

theorem classify_kwk (hx : x.ok = true) (hv : x.oldValid = true) (h : c.toNat = x.avail) : classify x c = .lzwKwk := by
  obtain ⟨-, -, -, -, hav, -⟩ := (lzwCxOk_iff x).mp hx
  have heoi : x.eoi = x.clear + 1 := rfl
  have hfree : x.firstFree = x.clear + 2 := rfl
  have hc : ¬x.isRef c.toNat = true := by rw [isRef_iff]; omega
  rw [classify, if_neg (by omega), if_neg (by omega), if_pos hv, if_neg hc, if_pos h]

theorem classify_illegal (hx : x.ok = true) (h : x.isIllegal c.toNat = true) : classify x c = .lzwIllegal c := by
  obtain ⟨-, -, -, -, hav, -⟩ := (lzwCxOk_iff x).mp hx
  have heoi : x.eoi = x.clear + 1 := rfl
  have hfree : x.firstFree = x.clear + 2 := rfl
  rw [isIllegal_iff] at h
  unfold classify
  split at h
  · next hv =>
    have hc : ¬x.isRef c.toNat = true := by rw [isRef_iff]; omega
    rw [if_neg (by omega), if_neg (by omega), if_pos hv, if_neg hc, if_neg (by omega)]
  · next hv => rw [if_neg (by omega), if_neg (by omega), if_neg hv, if_neg (by omega)]

end

/-- The bits of a code are read back as the code's class, in either bit order (R109, R110). -/
theorem decode_lzwBits {x : LzwCx} {c : Nat} (hc : c < 2 ^ x.codeSize) :
    decode (.lzw x) (.bits (x.bits c)) = .ok (classify x (BitVec.ofNat 12 c)) := by
  refine (whole_eq_ok _ _).mpr ?_
  have hlen : (x.bits c).length = x.codeSize := by unfold LzwCx.bits; split <;> simp
  have hval : (if x.tiff then msbValue (x.bits c) else lsbValue (x.bits c)) = c := by
    unfold LzwCx.bits
    split
    · rw [msbValue_msbBits, Nat.mod_eq_of_lt hc]
    · rw [lsbValue_lsbBits, Nat.mod_eq_of_lt hc]
  rw [decodeLzw, if_neg (by omega), List.take_of_length_le hlen.le, List.drop_of_length_le hlen.le]
  dsimp only
  rw [hval]

theorem decode_encode_lzw {x : LzwCx} {i : Instr} (h : wf (.lzw x) i = true) :
    ∃ c, encode (.lzw x) i = some c ∧ decode (.lzw x) c = .ok i := by
  obtain ⟨hx, hclass⟩ := wf_lzw h
  obtain ⟨hn, -, hsize, h12, -, -⟩ := (lzwCxOk_iff x).mp hx
  have hpow : 2 * x.clear ≤ 2 ^ x.codeSize := by
    rw [LzwCx.clear, ← pow_succ']; exact Nat.pow_le_pow_right (by decide) hsize
  have hclear : 4 ≤ x.clear := Nat.pow_le_pow_right (n := 2) (by decide) hn
  have heoi : x.eoi = x.clear + 1 := rfl
  have hfits : ∀ c, c < 2 ^ x.codeSize → (BitVec.ofNat 12 c).toNat = c := fun c hc =>
    BitVec.toNat_ofNat .. ▸ Nat.mod_eq_of_lt (hc.trans_le (Nat.pow_le_pow_right (by decide) h12))
  have key : ∀ c, c < 2 ^ x.codeSize → classify x (BitVec.ofNat 12 c) = i →
      decode (.lzw x) (.bits (x.bits c)) = .ok i := fun c hc he => he ▸ decode_lzwBits hc
  obtain rfl | rfl | ⟨c, rfl, hv, hc⟩ | ⟨c, rfl, hv, hr, hc⟩ | ⟨rfl, hv, -, hc⟩ | ⟨c, rfl, hi, hc⟩ := hclass
  · exact ⟨_, encode_lzwClear x, key _ (by omega) (classify_clear (hfits _ (by omega)))⟩
  · exact ⟨_, encode_lzwEoi x, key _ (by omega) (classify_eoi (hfits _ (by omega)))⟩
  · exact ⟨_, encode_lzwLit x c, key _ (by omega) (by rw [BitVec.ofNat_toNat, BitVec.setWidth_eq, classify_lit hv hc])⟩
  · exact ⟨_, encode_lzwRef x c, key _ hc (by rw [BitVec.ofNat_toNat, BitVec.setWidth_eq, classify_ref hv hr])⟩
  · exact ⟨_, encode_lzwKwk x, key _ hc (classify_kwk hx hv (hfits _ hc))⟩
  · exact ⟨_, encode_lzwIllegal x c, key _ hc (by rw [BitVec.ofNat_toNat, BitVec.setWidth_eq, classify_illegal hx hi])⟩

/-! ### G4E code words (30_encoding.md R112, R114; 42_g4_encoder.md R243) -/

theorem codeWordOk_iff (c : CodeWord) : c.ok = true ↔ 1 ≤ c.len ∧ c.len ≤ 13 ∧ c.code < 2 ^ c.len := by
  simp only [CodeWord.ok, Bool.and_eq_true, decide_eq_true_eq, and_assoc]

theorem take_msbBits (n v : Nat) {k : Nat} (hk : k ≤ n) : (msbBits n v).take k = msbBits k (v / 2 ^ (n - k)) := by
  obtain ⟨j, rfl⟩ := Nat.exists_eq_add_of_le hk
  rw [msbBits_add, List.take_left' (msbBits_length _ _), Nat.add_sub_cancel_left]

theorem msbBits_injective {n v w : Nat} (hv : v < 2 ^ n) (hw : w < 2 ^ n) (h : msbBits n v = msbBits n w) : v = w := by
  have h := congrArg msbValue h
  rwa [msbValue_msbBits, msbValue_msbBits, Nat.mod_eq_of_lt hv, Nat.mod_eq_of_lt hw] at h

/-- A word whose bits begin another's is not apart from it. -/
theorem not_prefix_of_apart {c d : CodeWord} (hc : c.ok = true) (hd : d.ok = true) (h : c.apart d = true) :
    ¬c.bits <+: d.bits := by
  intro hp
  obtain ⟨-, -, hc⟩ := (codeWordOk_iff c).mp hc
  obtain ⟨-, -, hd⟩ := (codeWordOk_iff d).mp hd
  have hlen : c.len ≤ d.len := by simpa using hp.length_le
  have hbits : msbBits c.len c.code = msbBits c.len (d.code / 2 ^ (d.len - c.len)) := by
    rw [← take_msbBits _ _ hlen]
    simpa [CodeWord.bits] using List.prefix_iff_eq_take.mp hp
  have hcode : c.code = d.code / 2 ^ (d.len - c.len) := by
    refine msbBits_injective hc ?_ hbits
    rwa [Nat.div_lt_iff_lt_mul (by positivity), ← pow_add, Nat.add_sub_cancel' hlen]
  rw [CodeWord.apart, if_pos hlen, Nat.shiftRight_eq_div_pow, ← hcode] at h
  simp at h

/-- Where no word of a table begins another, every word's own bits find it (R112). -/
theorem matchWord_bits : ∀ {ps : List (CodeWord × Instr)}, prefixFree (ps.map Prod.fst) = true →
    (∀ p ∈ ps, p.1.ok = true) → ∀ p ∈ ps, matchWord p.1.bits ps = some p := by
  intro ps
  induction ps with
  | nil => intro _ _ p hp; cases hp
  | cons q ps ih =>
    intro hfree hok p hp
    obtain ⟨hq, hfree⟩ := (Bool.and_eq_true _ _).mp hfree
    rw [matchWord]
    rcases List.mem_cons.mp hp with rfl | hp
    · rw [if_pos (List.isPrefixOf_iff_prefix.mpr (List.prefix_refl _))]
    · have hapart := List.all_eq_true.mp hq p.1 (List.mem_map_of_mem hp)
      have hnot := not_prefix_of_apart (hok q List.mem_cons_self) (hok p (List.mem_cons_of_mem _ hp)) hapart
      rw [if_neg (fun h => hnot (List.isPrefixOf_iff_prefix.mp h))]
      exact ih hfree (fun r hr => hok r (List.mem_cons_of_mem _ hr)) p hp

theorem printedCodes_prefixFree (t : G4Table) : prefixFree (printedCodes t) = true := by
  cases t <;> rfl

theorem printedCodes_ok (t : G4Table) : (printedCodes t).all CodeWord.ok = true := by
  cases t <;> rfl

theorem printedCodes_length (t : G4Table) : (printedCodes t).length = (g4Instrs t).length := by
  cases t <;> rfl

/-- An element stands in its table at its index. -/
theorem g4Instrs_g4Index {i : Instr} {t : G4Table} {k : Nat} (h : i.g4Index = some (t, k)) : (g4Instrs t)[k]? = some i := by
  have key : i.g4Index.all fun p => (g4Instrs p.1)[p.2]? == some i := by cases i <;> rfl
  rw [h] at key
  exact beq_iff_eq.mp key

/-- The word of an element and the element stand together in the pairs the decoder looks through. -/
theorem exists_g4Word {i : Instr} {t : G4Table} (h : i.g4Index.map Prod.fst = some t) :
    ∃ w, i.g4Word = some w ∧ (w, i) ∈ (printedCodes t).zip (g4Instrs t) := by
  obtain ⟨⟨t, k⟩, hp, rfl⟩ := Option.map_eq_some_iff.mp h
  have hi := g4Instrs_g4Index hp
  obtain ⟨hk, -⟩ := List.getElem?_eq_some_iff.mp hi
  have hw := List.getElem?_eq_getElem ((printedCodes_length t).symm ▸ hk)
  refine ⟨_, by rw [Instr.g4Word, hp]; exact hw, List.mem_of_getElem? (i := k) ?_⟩
  exact List.getElem?_zip_eq_some.mpr ⟨hw, hi⟩

theorem decode_encode_g4 {t : G4Table} {i : Instr} (h : wf (.g4 t) i = true) :
    ∃ c, encode (.g4 t) i = some c ∧ decode (.g4 t) c = .ok i := by
  rw [wf_g4, beq_iff_eq] at h
  obtain ⟨w, hw, hmem⟩ := exists_g4Word h
  have hfst : ((printedCodes t).zip (g4Instrs t)).map Prod.fst = printedCodes t :=
    List.map_fst_zip (printedCodes_length t).le
  have hok : ∀ p ∈ (printedCodes t).zip (g4Instrs t), p.1.ok = true := fun p hp =>
    List.all_eq_true.mp (printedCodes_ok t) p.1 (List.of_mem_zip hp).1
  have hmatch := matchWord_bits (hfst.symm ▸ printedCodes_prefixFree t) hok _ hmem
  refine ⟨.bits w.bits, by rw [encode_g4, hw]; rfl, (whole_eq_ok _ _).mpr ?_⟩
  rw [decodeG4, hmatch]
  simp

/-! ### The statements -/

/-- Settles O1: in each context, the element's encoding is what the context's decoder reads back whole. -/
theorem decodeInvertsEncode : Obligations.DecodeInvertsEncode := by
  unfold Obligations.DecodeInvertsEncode
  intro cx i h
  cases cx with
  | scan prb =>
    obtain ⟨f, raw, rfl, rfl⟩ := wf_scan h
    exact ⟨_, encode_filter _ f raw, decode_filter f raw⟩
  | rle m => exact decode_encode_rle h
  | lzw x => exact decode_encode_lzw h
  | g4 t => exact decode_encode_g4 h
  | cmd u =>
    obtain rfl | rfl := wf_cmd h
    · exact ⟨_, encode_cmdStart u u, rfl⟩
    · exact ⟨_, encode_cmdClear u u, rfl⟩

/-- Settles O3: each clause is a row of the decoder's command table; 256 bytes hold the longest absolute run and its pad. -/
theorem everyBytePairIsACommand : Obligations.EveryBytePairIsACommand := by
  unfold Obligations.EveryBytePairIsACommand
  intro m b0 b1 rest hlen
  refine ⟨fun h0 => decodeRle_run m h0 b1 rest, ?_, ?_, ?_, ?_⟩
  · rintro rfl rfl
    exact decodeRle_eol m rest
  · rintro rfl rfl
    exact decodeRle_eob m rest
  · rintro rfl rfl
    match rest with
    | [] | [_] => simp at hlen
    | dx :: dy :: rest => exact decodeRle_delta m dx dy rest
  · rintro rfl hn
    have hb := b1.isLt
    have hnb : absDataBytes m b1.toNat = if m then (b1.toNat + 1) / 2 else b1.toNat := rfl
    rw [← hnb]
    refine decodeRle_abs m hn (le_trans ?_ hlen)
    unfold padBytes
    split at hnb <;> omega

/-- Settles O4: one lemma for each class, whose condition excludes the branches tried before it. -/
theorem codeClasses : Obligations.CodeClasses := by
  unfold Obligations.CodeClasses
  intro x c hx
  refine ⟨classify_clear, classify_eoi, classify_lit, fun hv h => classify_illegal hx ?_,
    fun hv h => classify_ref hv ((isRef_iff x _).mpr h), classify_kwk hx, fun hv h => classify_illegal hx ?_⟩
  · rw [isIllegal_iff, if_neg (by simp [hv])]
    exact h
  · rw [isIllegal_iff, if_pos hv]
    exact h

/-- Settles O5: the seven words are closed, and each decoder is run on its own. -/
theorem sampleWordsDecode : Obligations.SampleWordsDecode := by
  unfold Obligations.SampleWordsDecode
  exact ⟨rfl, rfl, rfl, rfl, rfl, rfl, rfl⟩

end Sys2Proof.Proofs
end

section
/-! PROOFS. The fetch of an LZW code reads the next bits of the stream (30_encoding.md R109, R110; 41_lzw.md R183 to
R185). -/

namespace Sys2Proof.Proofs

open Sys2Proof.Machine Sys2Proof.Laws

/-! ### The stream and the position in it -/

theorem stream_length (l : Lzd) : l.stream.length = 8 * l.sh.inLen.toNat := by
  rw [stream_eq, List.length_flatMap, List.map_congr_left fun b _ => byteBits_length l.tiff b]
  simp [Nat.mul_comm]

/-- The bits behind the cursor are those used and those held. -/
theorem bitPos_add_nbits {l : Lzd} (h : Buffered l) : l.bitPos + l.nbits.toNat = 8 * l.sh.inPos.toNat :=
  Nat.sub_add_cancel h.behind

/-- Loading a byte moves the cursor, not the position of the next code. -/
theorem load_bitPos {l : Lzd} (hn : l.nbits.toNat ≤ 24) (hin : l.sh.inPos.toNat < l.sh.inLen.toNat) :
    l.load.bitPos = l.bitPos := by
  have hpos : l.load.sh.inPos.toNat = l.sh.inPos.toNat + 1 := advance_inPos_toNat hin
  unfold Lzd.bitPos
  rw [hpos, load_nbits_toNat hn]
  omega

/-- The loading loop leaves the position of the next code, and gives up only with too few bits (R185). -/
theorem fill_bitPos (n : Nat) : ∀ {l : Lzd}, l.codeSize.toNat ≤ 12 →
    (l.fill n).1.bitPos = l.bitPos ∧ ((l.fill n).2 = false → (l.fill n).1.nbits.toNat < l.codeSize.toNat) := by
  induction n with
  | zero => intro l _; exact ⟨rfl, fun hf => (Bool.false_ne_true hf.symm).elim⟩
  | succ n ih =>
    intro l hc
    rw [Lzd.fill]
    split
    · next hlt =>
      split
      · exact ⟨rfl, fun _ => hlt⟩
      · obtain ⟨hpos, hfew⟩ := ih (l := l.load) hc
        exact ⟨hpos.trans (load_bitPos (by omega) (by omega)), hfew⟩
    · exact ⟨rfl, fun hf => (Bool.false_ne_true hf.symm).elim⟩

/-! ### The code -/

/-- The code taken is the value of the first bits held, in the variant's order. -/
theorem take_value_held {l : Lzd} (h12 : l.codeSize.toNat ≤ 12) (hc : l.codeSize.toNat ≤ l.nbits.toNat) :
    l.take.1.toNat =
      if l.tiff then msbValue (l.held.take l.codeSize.toNat) else lsbValue (l.held.take l.codeSize.toNat) := by
  rw [take_value l h12]
  unfold Lzd.held
  split
  · rw [take_msbBits _ _ hc, msbValue_msbBits]
  · obtain ⟨j, hj⟩ := Nat.exists_eq_add_of_le hc
    rw [hj, lsbBits_add, List.take_left' (lsbBits_length _ _), lsbValue_lsbBits]

/-- The bits of a whole code held are the next bits of the stream. -/
theorem held_take {l : Lzd} (h : Buffered l) (hc : l.codeSize.toNat ≤ l.nbits.toNat) :
    l.held.take l.codeSize.toNat = (l.stream.drop l.bitPos).take l.codeSize.toNat := by
  rw [h.held, List.take_take, Nat.min_eq_left hc]

theorem take_bitPos {l : Lzd} (h : Buffered l) (hc : l.codeSize.toNat ≤ l.nbits.toNat) :
    l.take.2.bitPos = l.bitPos + l.codeSize.toNat := by
  have hbehind := h.behind
  have hsh : l.take.2.sh = l.sh := by rw [take_frame]
  unfold Lzd.bitPos
  rw [take_nbits_toNat, hsh]
  omega

/-! ### The fetch -/

section
variable {l : Lzd}

theorem fill_codeSize (l : Lzd) (n : Nat) : (l.fill n).1.codeSize = l.codeSize := by rw [fill_frame]

theorem fill_stream (l : Lzd) (n : Nat) : (l.fill n).1.stream = l.stream := by rw [fill_frame]; rfl

theorem fill_inLen (l : Lzd) (n : Nat) : (l.fill n).1.sh.inLen = l.sh.inLen := by rw [fill_frame]

theorem fill_tiff (l : Lzd) (n : Nat) : (l.fill n).1.tiff = l.tiff := by rw [fill_frame]; rfl

/-- A fetch finds a code exactly where the stream has its bits (R183 to R185). -/
theorem fill_true_iff (h : Buffered l) (h12 : l.codeSize.toNat ≤ 12) (hn : l.nbits.toNat ≤ 7) :
    (l.fill 2).2 = true ↔ l.bitPos + l.codeSize.toNat ≤ 8 * l.sh.inLen.toNat := by
  obtain ⟨hbuf, -, hcode, hend⟩ := fill_keeps_buffered 2 h h12 (by omega)
  obtain ⟨hpos, hfew⟩ := fill_bitPos 2 h12
  have hsum := bitPos_add_nbits hbuf
  have hcursor := hbuf.cursor
  rw [fill_inLen] at hcursor
  cases hf : (l.fill 2).2 with
  | true =>
    have := hcode (by omega) hf
    exact iff_of_true rfl (by omega)
  | false =>
    have := hfew hf
    have := hend hf
    exact iff_of_false (by decide) (by omega)

/-- Where the input runs out the cursor stands at its end. -/
theorem fill_exhausted (h : Buffered l) (h12 : l.codeSize.toNat ≤ 12) (hn : l.nbits.toNat ≤ 7) (hf : (l.fill 2).2 = false) :
    (l.fill 2).1 = { l with
      datum := (l.fill 2).1.datum
      nbits := (l.fill 2).1.nbits
      sh := { l.sh with inPos := l.sh.inLen } } := by
  obtain ⟨hbuf, -, -, hend⟩ := fill_keeps_buffered 2 h h12 (by omega)
  have hcursor := hbuf.cursor
  rw [fill_inLen] at hcursor
  have hpos : (l.fill 2).1.sh.inPos = l.sh.inLen := BitVec.eq_of_toNat_eq (le_antisymm hcursor (hend hf))
  have hframe := fill_frame 2 l
  rwa [hpos] at hframe

/-- The decoder reads at the stream's position the code that the fetch takes there. -/
theorem decodeLzw_stream (l : Lzd) (hroom : l.bitPos + l.codeSize.toNat ≤ 8 * l.sh.inLen.toNat) {c : BitVec 12}
    (hc : c.toNat =
      if l.tiff then msbValue ((l.stream.drop l.bitPos).take l.codeSize.toNat)
      else lsbValue ((l.stream.drop l.bitPos).take l.codeSize.toNat)) :
    decodeLzw l.cx (l.stream.drop l.bitPos) =
      .ok (classify l.cx c, l.stream.drop (l.bitPos + l.codeSize.toNat)) := by
  have hlen := stream_length l
  have hcode : c = BitVec.ofNat 12 (if l.tiff then msbValue ((l.stream.drop l.bitPos).take l.codeSize.toNat)
      else lsbValue ((l.stream.drop l.bitPos).take l.codeSize.toNat)) := by
    rw [← hc, BitVec.ofNat_toNat, BitVec.setWidth_eq]
  have hfits : ¬(l.stream.drop l.bitPos).length < l.cx.codeSize := by
    rw [List.length_drop, hlen]
    exact Nat.not_lt.mpr (Nat.le_sub_of_add_le' hroom)
  rw [decodeLzw, if_neg hfits, List.drop_drop, hcode]
  rfl

theorem decodeLzw_truncated (l : Lzd) (hc : 0 < l.codeSize.toNat) (hroom : 8 * l.sh.inLen.toNat < l.bitPos + l.codeSize.toNat) :
    decodeLzw l.cx (l.stream.drop l.bitPos) = .error .truncated := by
  refine if_pos ?_
  have hcs : l.cx.codeSize = l.codeSize.toNat := rfl
  rw [List.length_drop, stream_length, hcs]
  omega

end

/-- Settles O21: the buffer holds the bits before the cursor, so what is taken of it is what the stream has next. -/
theorem fetchTakesTheNextBits : Obligations.FetchTakesTheNextBits := by
  unfold Obligations.FetchTakesTheNextBits
  intro s hr _ hcursor
  obtain ⟨-, -, hcs, h12, -, -⟩ := (cxOk_iff s.lzd).mp hr.ranges
  have hbuf := running_buffered hr hcursor
  have hn := hr.buffered
  have hiff := fill_true_iff hbuf h12 hn
  refine ⟨fun hroom => ?_, fun hroom => ⟨?_, decodeLzw_truncated s.lzd (by omega) hroom⟩⟩
  · have hf := hiff.mpr hroom
    obtain ⟨hfilled, hnbits, hcode, -⟩ := fill_keeps_buffered 2 hbuf h12 (by omega)
    have hcode := hcode (by omega) hf
    have hframe := fetch_frame s.lzd
    obtain ⟨hpos, -⟩ := fill_bitPos 2 h12
    have hcs := fill_codeSize s.lzd 2
    rw [← hcs] at h12 hcode
    have hvalue := take_value_held h12 hcode
    rw [held_take hfilled hcode, fill_stream, fill_tiff, hpos, hcs] at hvalue
    have hend := take_bitPos hfilled hcode
    rw [hpos, hcs] at hend
    have hstream : (s.lzd.fill 2).1.take.2.stream = s.lzd.stream := by rw [hframe]; rfl
    have hcx : (s.lzd.fill 2).1.take.2.cx = s.lzd.cx := by rw [hframe]; rfl
    have hin : (s.lzd.fill 2).1.take.2.sh.inPos = (s.lzd.fill 2).1.sh.inPos := by rw [take_frame]
    refine ⟨(s.lzd.fill 2).1, _, Prod.ext rfl hf, rfl, hvalue, by rw [hin]; exact hframe, hend, ?_, ?_, ?_⟩
    · rw [hin, ← fill_inLen s.lzd 2]; exact hfilled.cursor
    · rw [take_nbits_toNat, hcs]; omega
    · rw [hcx, hstream, hend]
      exact decodeLzw_stream s.lzd hroom hvalue
  · have hf : (s.lzd.fill 2).2 = false := Bool.not_eq_true _ ▸ fun h => absurd (hiff.mp h) (Nat.not_le.mpr hroom)
    exact ⟨_, Prod.ext rfl hf, fill_exhausted hbuf h12 hn hf⟩

end Sys2Proof.Proofs
end

section
/-! PROOFS. The words of a run of G4E (30_encoding.md R114, 42_g4_encoder.md R234). -/

namespace Sys2Proof.Proofs

open Sys2Proof.Machine

theorem runWords_long (c : Colour) {n : Nat} (h : 2624 ≤ n) : runWords c n = ⟨c, 103⟩ :: runWords c (n - 2560) := by
  have hfuel : (n - 2560) / 2560 + 1 = n / 2560 := by omega
  rw [runWords, runWordsFrom, if_pos h, runWords, hfuel]

theorem runWords_makeup (c : Colour) {n : Nat} (h64 : 64 ≤ n) (h : n < 2624) :
    runWords c n = [⟨c, Fin.ofNat 104 (63 + n / 64)⟩, ⟨c, Fin.ofNat 104 (n % 64)⟩] := by
  rw [runWords, runWordsFrom, if_neg (by omega), if_pos h64]
  rfl

theorem runWords_short (c : Colour) {n : Nat} (h : n < 64) : runWords c n = [⟨c, Fin.ofNat 104 n⟩] := by
  rw [runWords, runWordsFrom, if_neg (by omega), if_neg (by omega), Nat.mod_eq_of_lt h]
  rfl

/-- The pixels a run word stands for: its index up to 63, then 64 for each index above. -/
def runWordSpan (w : RunWord) : Nat := if w.index.val ≤ 63 then w.index.val else 64 * (w.index.val - 63)

theorem runWordSpan_terminating (c : Colour) {t : Nat} (h : t < 64) : runWordSpan ⟨c, Fin.ofNat 104 t⟩ = t := by
  have hval : (Fin.ofNat 104 t).val = t := Nat.mod_eq_of_lt (by omega)
  rw [runWordSpan, hval, if_pos (by omega)]

theorem runWordSpan_makeup (c : Colour) {m : Nat} (h1 : 1 ≤ m) (h40 : m ≤ 40) :
    runWordSpan ⟨c, Fin.ofNat 104 (63 + m)⟩ = 64 * m := by
  have hval : (Fin.ofNat 104 (63 + m)).val = 63 + m := Nat.mod_eq_of_lt (by omega)
  rw [runWordSpan, hval, if_neg (by omega), Nat.add_sub_cancel_left]

/-- The words of a run stand for all its pixels; each 2560 word leaves a shorter run. -/
theorem runWords_sum (c : Colour) (n : Nat) : ((runWords c n).map runWordSpan).sum = n := by
  induction n using Nat.strong_induction_on with
  | _ n ih =>
    rcases Nat.lt_or_ge n 2624 with hlt | hlong
    · rcases Nat.lt_or_ge n 64 with hshort | h64
      · rw [runWords_short c hshort, List.map_singleton, List.sum_singleton, runWordSpan_terminating c hshort]
      · have ht := runWordSpan_terminating c (Nat.mod_lt n (by decide : 0 < 64))
        have hm := runWordSpan_makeup c (m := n / 64) (by omega) (by omega)
        rw [runWords_makeup c h64 hlt, List.map_cons, List.map_singleton, ht, hm, List.sum_cons, List.sum_singleton]
        exact Nat.div_add_mod n 64
    · have hmax : runWordSpan ⟨c, 103⟩ = 2560 := rfl
      rw [runWords_long c hlong, List.map_cons, List.sum_cons, ih _ (by omega), hmax]
      omega

/-- Settles O35: one equation for each range of spans, and the sum by induction over the 2560 words. -/
theorem runWordsOfASpan : Obligations.RunWordsOfASpan := by
  unfold Obligations.RunWordsOfASpan
  exact fun c n => ⟨runWords_long c, runWords_makeup c, runWords_short c, runWords_sum c n⟩

end Sys2Proof.Proofs
end

section
/-! PROOFS. What G4E's bit packer sends, exactly, and the end of block (42_g4_encoder.md R235, R237, R239). -/

namespace Sys2Proof.Proofs

open Sys2Proof.Machine Sys2Proof.Laws

/-! ### Blocks read -/

theorem readBlock_snoc {w : Nat} (sp : Space) (gen : Nat) (m : Mem w) (a n : Nat) :
    readBlock sp gen m a (n + 1) = readBlock sp gen m a n ++ [cell sp gen m (a + n)] := by
  induction n generalizing a with
  | zero => rfl
  | succ n ih => rw [readBlock, ih, readBlock, List.cons_append, Nat.add_right_comm, Nat.add_assoc]

theorem readBlock_congr {w : Nat} {sp : Space} {gen : Nat} {m m' : Mem w} {a n : Nat}
    (h : ∀ k, k < n → cell sp gen m (a + k) = cell sp gen m' (a + k)) :
    readBlock sp gen m a n = readBlock sp gen m' a n := by
  refine List.ext_getElem? fun k => ?_
  rw [readBlock_getElem?, readBlock_getElem?]
  split
  · next hk => rw [h k hk]
  · rfl

/-! ### The bits sent -/

/-- The bits of the whole bytes sent. -/
def outBits (g : G4e) : List Bool :=
  (readBlock (.output .g4e) g.sh.outGen g.sh.outBuf 0 g.sh.outLen.toNat).flatMap fun b => msbBits 8 b.toNat

/-- The bits sent that are still in `ACC`. -/
def accBits (g : G4e) : List Bool := (msbBits 8 g.acc.toNat).take (8 - g.free.toNat)

theorem sent_eq (g : G4e) : g.sent = outBits g ++ accBits g := rfl

theorem sent_length (g : G4e) : g.sent.length = 8 * g.sh.outLen.toNat + (8 - g.free.toNat) := by
  rw [sent_eq, List.length_append, outBits, accBits, List.length_flatMap, List.length_take, msbBits_length,
    List.map_congr_left fun b _ => msbBits_length 8 b.toNat]
  simp [Nat.mul_comm]

/-- The packer has sent `bs`: it and `OUT` have changed by that alone (R235). -/
structure Appends (g g' : G4e) (bs : List Bool) : Prop where
  frame : g' = { g with
    acc := g'.acc
    free := g'.free
    sh := { g.sh with outBuf := g'.sh.outBuf, outLen := g'.sh.outLen } }
  packer : g'.PackerOk
  sent : g'.sent = g.sent ++ bs
  kept : ∀ a, a < g.sh.outLen.toNat ∨ g'.sh.outLen.toNat ≤ a → g'.sh.outByte .g4e a = g.sh.outByte .g4e a

section
variable {cfg : Config} {g g' g1 g2 : G4e} {bs cs : List Bool}

/-- How far the packer is, counted in bits. -/
theorem appends_length (h : Appends g g' bs) :
    8 * g'.sh.outLen.toNat + (8 - g'.free.toNat) = 8 * g.sh.outLen.toNat + (8 - g.free.toNat) + bs.length := by
  rw [← sent_length, ← sent_length, h.sent, List.length_append]

theorem appends_outLen (h : Appends g g' bs) :
    g'.sh.outLen.toNat = g.sh.outLen.toNat + (8 - g.free.toNat + bs.length) / 8 := by
  have hlen := appends_length h
  obtain ⟨⟨h1, h8⟩, -⟩ := h.packer
  omega

theorem appends_refl (h : g.PackerOk) : Appends g g [] := ⟨rfl, h, (List.append_nil _).symm, fun _ _ => rfl⟩

theorem appends_trans (h1 : Appends g g1 bs) (h2 : Appends g1 g2 cs) : Appends g g2 (bs ++ cs) where
  frame := by
    have hframe := h2.frame
    rw [h1.frame] at hframe
    exact hframe
  packer := h2.packer
  sent := by rw [h2.sent, h1.sent, List.append_assoc]
  kept a ha := by
    have hn1 := appends_outLen h1
    have hn2 := appends_outLen h2
    rw [h2.kept a (by omega), h1.kept a (by omega)]

/-- The same in the terms of the statements. -/
theorem packed_of_appends (h : Appends g g' bs) : g.Packed g' bs := by
  refine ⟨h.packer, h.sent, ?_, h.kept⟩
  have hout : g'.sh.outLen = word (g.sh.outLen.toNat + (8 - g.free.toNat + bs.length) / 8) := by
    rw [← appends_outLen h, word_of_toNat]
  rw [← hout]
  exact congrArg G4e.sh h.frame

/-- Room for more bits after some were sent. -/
theorem room_after (h : Appends g g1 bs) (n : Nat) : g1.Room cfg n ↔ g.Room cfg (bs.length + n) := by
  have hlen := appends_length h
  unfold G4e.Room
  omega

/-- What was sent had room. -/
theorem outLen_le_of_room (h : Appends g g' bs) (hroom : g.Room cfg bs.length) : g'.sh.outLen.toNat ≤ cfg.maxOut :=
  (appends_outLen h).trans_le hroom

/-! ### The packer's answers -/

/-- `E_OVF`: the packer, `OUT` and the status fields have changed (R239). -/
structure Overflows (cfg : Config) (g g' : G4e) : Prop where
  frame : g' = { g with acc := g'.acc, free := g'.free, sh := g'.sh }
  overflowed : g.Overflowed cfg g'

theorem overflows_after (h : Appends g g1 bs) (ho : Overflows cfg g1 g2) : Overflows cfg g g2 where
  frame := by
    have hframe := ho.frame
    rw [h.frame] at hframe
    exact hframe
  overflowed := by
    have hsh := ho.overflowed
    unfold G4e.Overflowed at hsh ⊢
    rw [h.frame] at hsh
    exact hsh

/-- To send `bs` appends them where they have room, and else ends in `E_OVF` (R235, R239). -/
inductive PackSpec (cfg : Config) (g : G4e) (bs : List Bool) : Except G4e G4e → Prop
  | fits (g' : G4e) (hroom : g.Room cfg bs.length) (h : Appends g g' bs) : PackSpec cfg g bs (.ok g')
  | overflows (g' : G4e) (hroom : ¬g.Room cfg bs.length) (h : Overflows cfg g g') : PackSpec cfg g bs (.error g')

/-- Bits sent one after the other. -/
theorem packSpec_bind {r : Except G4e G4e} {k : G4e → Except G4e G4e} (h : PackSpec cfg g bs r)
    (hk : ∀ g1, Appends g g1 bs → g1.sh.outLen.toNat ≤ cfg.maxOut → PackSpec cfg g1 cs (k g1)) :
    PackSpec cfg g (bs ++ cs) (r.bind k) := by
  cases h with
  | overflows g1 hroom ho =>
    refine .overflows g1 (fun hr => hroom ?_) ho
    unfold G4e.Room at hr ⊢
    rw [List.length_append] at hr
    omega
  | fits g1 hroom h1 =>
    change PackSpec cfg g (bs ++ cs) (k g1)
    have hiff := room_after (cfg := cfg) h1 cs.length
    rw [← List.length_append] at hiff
    have hnext := hk g1 h1 (outLen_le_of_room h1 hroom)
    generalize k g1 = r at hnext ⊢
    cases hnext with
    | fits g2 hr h2 => exact .fits g2 (hiff.mp hr) (appends_trans h1 h2)
    | overflows g2 hr ho => exact .overflows g2 (fun h => hr (hiff.mpr h)) (overflows_after h1 ho)

theorem packSpec_ok {r : Except G4e G4e} (h : PackSpec cfg g bs r) (hroom : g.Room cfg bs.length) :
    ∃ g', r = .ok g' ∧ Appends g g' bs := by
  cases h with
  | fits g' _ h => exact ⟨g', rfl, h⟩
  | overflows g' hr _ => exact absurd hroom hr

theorem packSpec_error {r : Except G4e G4e} (h : PackSpec cfg g bs r) (hroom : ¬g.Room cfg bs.length) :
    ∃ g', r = .error g' ∧ Overflows cfg g g' := by
  cases h with
  | fits g' hr _ => exact absurd hr hroom
  | overflows g' _ h => exact ⟨g', rfl, h⟩

end

/-! ### Bits filled into `ACC` -/

section
variable {acc : Byte} {free len code : Nat}

theorem accFill_toNat (hfree : free ≤ 8) (hlow : acc.toNat % 2 ^ free = 0) (hlen : len ≤ free) (hcode : code < 2 ^ len) :
    (acc ||| BitVec.ofNat 8 (code <<< (free - len))).toNat = acc.toNat + code * 2 ^ (free - len) := by
  have hpow : 2 ^ free = 2 ^ len * 2 ^ (free - len) := by rw [← pow_add, Nat.add_sub_cancel' hlen]
  have hlt : code * 2 ^ (free - len) < 2 ^ free := hpow ▸ Nat.mul_lt_mul_of_pos_right hcode (by positivity)
  have h8 : code * 2 ^ (free - len) < 2 ^ 8 := hlt.trans_le (Nat.pow_le_pow_right (by decide) hfree)
  obtain ⟨k, hk⟩ := Nat.dvd_of_mod_eq_zero hlow
  rw [BitVec.toNat_or, BitVec.toNat_ofNat, Nat.shiftLeft_eq, Nat.mod_eq_of_lt h8, hk, Nat.two_pow_add_eq_or_of_lt hlt]

/-- The bits of a word join those in `ACC`, behind them. -/
theorem accFill_bits (hfree : free ≤ 8) (hlow : acc.toNat % 2 ^ free = 0) (hlen : len ≤ free) (hcode : code < 2 ^ len) :
    (msbBits 8 (acc ||| BitVec.ofNat 8 (code <<< (free - len))).toNat).take (8 - (free - len)) =
      (msbBits 8 acc.toNat).take (8 - free) ++ msbBits len code := by
  obtain ⟨k, hk⟩ := Nat.dvd_of_mod_eq_zero hlow
  have hpow : 2 ^ free = 2 ^ (free - len) * 2 ^ len := by rw [← pow_add, Nat.sub_add_cancel hlen]
  have hsum : acc.toNat + code * 2 ^ (free - len) = 2 ^ (free - len) * (2 ^ len * k + code) := by rw [hk, hpow]; ring
  rw [take_msbBits _ _ (Nat.sub_le _ _), take_msbBits _ _ (Nat.sub_le _ _), accFill_toNat hfree hlow hlen hcode, hsum,
    show 8 - (8 - (free - len)) = free - len by omega, show 8 - (8 - free) = free by omega,
    show 8 - (free - len) = 8 - free + len by omega, Nat.mul_div_cancel_left _ (by positivity), msbBits_add,
    Nat.mul_add_div (by positivity), Nat.div_eq_of_lt hcode, Nat.add_zero, hk, Nat.mul_div_cancel_left _ (by positivity),
    ← msbBits_mod len (_ + _), Nat.mul_add_mod, Nat.mod_eq_of_lt hcode]

end

/-! ### A byte sent -/

/-- The unit after the byte `a` went to `OUT`. -/
def emitted (g : G4e) (a : Byte) : G4e :=
  { g with
    acc := 0
    free := 8
    sh := { g.sh with outBuf := store g.sh.outBuf g.sh.outLen.toNat [a], outLen := word (g.sh.outLen.toNat + 1) } }

section
variable {cfg : Config} {g : G4e}

theorem emitAcc_room (h : g.sh.outLen.toNat < cfg.maxOut) (a : Byte) (f : BitVec 4) :
    G4e.emitAcc cfg { g with acc := a, free := f } = .ok (emitted g a) := by
  rw [G4e.emitAcc, (emitByte_eq_ok cfg a { g with acc := a, free := f } _).mpr ⟨h, rfl⟩]
  rfl

theorem emitAcc_full (h : cfg.maxOut ≤ g.sh.outLen.toNat) (a : Byte) (f : BitVec 4) :
    G4e.emitAcc cfg { g with acc := a, free := f } =
      .error { g with acc := a, free := f, sh := g.sh.raise .ovf g.sh.inPos } := by
  rw [G4e.emitAcc, (emitByte_eq_error cfg a { g with acc := a, free := f } _).mpr ⟨h, rfl⟩]

/-- A byte whose first bits are those in `ACC` sends the others. -/
theorem emitted_appends {a : Byte} {bs : List Bool} (hlen : g.sh.outLen.toNat + 1 < 2 ^ 32)
    (ha : msbBits 8 a.toNat = accBits g ++ bs) : Appends g (emitted g a) bs := by
  have hword : (emitted g a).sh.outLen.toNat = g.sh.outLen.toNat + 1 := word_toNat_of_lt hlen
  have hcells := outByte_store .g4e g.sh g.sh.outLen.toNat [a]
  have hout : outBits (emitted g a) = outBits g ++ msbBits 8 a.toNat := by
    have hlast := cell_store_inside (.output .g4e) g.sh.outGen g.sh.outBuf g.sh.outLen.toNat [a] 0 (by simp)
    have hbefore : ∀ k, k < g.sh.outLen.toNat →
        cell (.output .g4e) g.sh.outGen (store g.sh.outBuf g.sh.outLen.toNat [a]) (0 + k) =
          cell (.output .g4e) g.sh.outGen g.sh.outBuf (0 + k) := fun k hk =>
      cell_store_outside _ _ _ _ _ _ (Or.inl (by omega))
    rw [outBits, hword, readBlock_snoc, List.flatMap_append]
    refine congrArg₂ (· ++ ·) (congrArg _ (readBlock_congr hbefore)) ?_
    rw [Nat.zero_add, List.flatMap_singleton]
    exact congrArg (fun b : Byte => msbBits 8 b.toNat) hlast
  refine ⟨rfl, (packerOk_iff _).mpr freeZero_empty, ?_, fun b hb => ?_⟩
  · have hempty : accBits (emitted g a) = [] := rfl
    rw [sent_eq, sent_eq, hout, ha, hempty, List.append_nil, List.append_assoc]
  · rw [hword] at hb
    refine (hcells b).trans (if_neg ?_)
    rw [List.length_singleton]
    omega

/-- A full byte goes to `OUT`, which then has one more, or is full (R235, R239). -/
theorem emitAcc_spec (hmax : cfg.maxOut ≤ 2 ^ 31) (hp : g.PackerOk) (hout : g.sh.outLen.toNat ≤ cfg.maxOut) {code : Nat}
    (hcode : code < 2 ^ g.free.toNat) (f : BitVec 4) :
    PackSpec cfg g (msbBits g.free.toNat code)
      (G4e.emitAcc cfg { g with acc := g.acc ||| BitVec.ofNat 8 code, free := f }) := by
  obtain ⟨⟨h1, h8⟩, hlow⟩ := hp
  have hroom : g.Room cfg (msbBits g.free.toNat code).length ↔ g.sh.outLen.toNat < cfg.maxOut := by
    rw [msbBits_length]
    unfold G4e.Room
    omega
  rcases Nat.lt_or_ge g.sh.outLen.toNat cfg.maxOut with hlt | hge
  · have hbits := accFill_bits h8 hlow le_rfl hcode
    rw [Nat.sub_self, Nat.shiftLeft_zero, List.take_of_length_le (by simp)] at hbits
    rw [emitAcc_room hlt]
    exact .fits _ (hroom.mpr hlt) (emitted_appends (by omega) hbits)
  · have hfull : g.sh.outLen = word cfg.maxOut := by rw [← le_antisymm hout hge, word_of_toNat]
    rw [emitAcc_full hge]
    refine .overflows _ (fun h => absurd (hroom.mp h) (Nat.not_lt.mpr hge)) ⟨rfl, ?_⟩
    unfold G4e.Overflowed
    rw [← hfull]
    rfl

/-! ### Words sent -/

/-- Bits that leave some of `ACC` free stay there. -/
theorem accFill_appends (hp : g.PackerOk) {len code : Nat} (hlen : len < g.free.toNat) (hcode : code < 2 ^ len) :
    Appends g { g with
      acc := g.acc ||| BitVec.ofNat 8 (code <<< (g.free.toNat - len))
      free := BitVec.ofNat 4 (g.free.toNat - len) } (msbBits len code) := by
  have hfree := freeZero_fill ((packerOk_iff g).mp hp) len code hlen
  obtain ⟨⟨h1, h8⟩, hlow⟩ := hp
  have hval : (BitVec.ofNat 4 (g.free.toNat - len)).toNat = g.free.toNat - len := by
    rw [BitVec.toNat_ofNat]
    omega
  refine ⟨rfl, (packerOk_iff _).mpr hfree, ?_, fun _ _ => rfl⟩
  rw [sent_eq, sent_eq, List.append_assoc]
  refine congrArg _ ?_
  rw [accBits, hval]
  exact accFill_bits h8 hlow hlen.le hcode

theorem pack_spec (hmax : cfg.maxOut ≤ 2 ^ 31) : ∀ (fuel len code : Nat) {g : G4e}, g.PackerOk →
    g.sh.outLen.toNat ≤ cfg.maxOut → code < 2 ^ len → len < fuel →
    PackSpec cfg g (msbBits len code) (g.pack cfg fuel len code) := by
  intro fuel
  induction fuel with
  | zero => intro len code g _ _ _ hfuel; exact absurd hfuel (Nat.not_lt_zero _)
  | succ fuel ih =>
    intro len code g hp hout hcode hfuel
    obtain ⟨⟨h1, h8⟩, -⟩ := id hp
    rw [G4e.pack]
    dsimp only
    split
    · next hlt =>
      have hlen : len = g.free.toNat + (len - g.free.toNat) := by omega
      have hfirst : code >>> (len - g.free.toNat) < 2 ^ g.free.toNat := by
        rwa [Nat.shiftRight_eq_div_pow, Nat.div_lt_iff_lt_mul (by positivity), ← pow_add, ← hlen]
      have hbits : msbBits len code = msbBits g.free.toNat (code >>> (len - g.free.toNat)) ++
          msbBits (len - g.free.toNat) (code % 2 ^ (len - g.free.toNat)) := by
        conv_lhs => rw [hlen, msbBits_add]
        rw [msbBits_mod, Nat.shiftRight_eq_div_pow]
      have hall := packSpec_bind (emitAcc_spec hmax hp hout hfirst g.free) fun g1 h1 hout1 =>
        ih (len - g.free.toNat) (code % 2 ^ (len - g.free.toNat)) h1.packer hout1 (Nat.mod_lt _ (by positivity)) (by omega)
      rw [← hbits] at hall
      split
      · next e he => rwa [he] at hall
      · next g1 he => rwa [he] at hall
    · next hge =>
      split
      · next heq =>
        subst heq
        rw [Nat.sub_self, Nat.shiftLeft_zero]
        exact emitAcc_spec hmax hp hout hcode _
      · next hne =>
        refine .fits _ ?_ (accFill_appends hp (by omega) hcode)
        rw [msbBits_length]
        unfold G4e.Room
        omega

/-- `putbits` (R235, R239). -/
theorem putbits_spec (hwf : cfg.wf = true) (hp : g.PackerOk) (hout : g.sh.outLen.toNat ≤ cfg.maxOut) {c : CodeWord}
    (hc : c.ok = true) : PackSpec cfg g c.bits (g.putbits cfg c) := by
  obtain ⟨-, -, hcode⟩ := (codeWordOk_iff c).mp hc
  exact pack_spec (wf_maxOut hwf) _ _ _ hp hout hcode (Nat.lt_succ_self _)

/-! ### The end of block -/

/-- Where the packer stands in its byte. -/
theorem appends_free {g' : G4e} {bs : List Bool} (h : Appends g g' bs) (hp : g.PackerOk) :
    (g'.free.toNat + bs.length) % 8 = g.free.toNat % 8 := by
  have hlen := appends_length h
  obtain ⟨⟨h1, h8⟩, -⟩ := h.packer
  obtain ⟨⟨g1, g8⟩, -⟩ := hp
  omega

/-- Bits that complete the last byte leave the packer empty. -/
theorem appends_empties {g' : G4e} {bs : List Bool} (h : Appends g g' bs) (hbs : (8 - g.free.toNat + bs.length) % 8 = 0) :
    g'.free = 8 ∧ g'.acc = 0 := by
  have hlen := appends_length h
  obtain ⟨⟨h1, h8⟩, hlow⟩ := h.packer
  have hacc := g'.acc.isLt
  have height : (8 : BitVec 4).toNat = 8 := rfl
  have hfree : g'.free = 8 := BitVec.eq_of_toNat_eq (by omega)
  rw [hfree] at hlow
  exact ⟨hfree, BitVec.eq_of_toNat_eq ((Nat.mod_eq_of_lt hacc).symm.trans hlow)⟩

theorem msbBits_zero (n : Nat) : msbBits n 0 = List.replicate n false := by
  have h : ∀ n, lsbBits n 0 = List.replicate n false := fun n => by
    induction n with
    | zero => rfl
    | succ n ih => rw [lsbBits, List.replicate_succ]; exact congrArg _ ih
  rw [msbBits, h, List.reverse_replicate]

/-- The bits of the last byte: as many zeros as complete it (R237). -/
def lastByte (cfg : Config) (g : G4e) : Except G4e G4e := if g.free = 8 then .ok g else g.emitAcc cfg

theorem lastByte_spec (hwf : cfg.wf = true) (hp : g.PackerOk) (hout : g.sh.outLen.toNat ≤ cfg.maxOut) :
    PackSpec cfg g (List.replicate (g.free.toNat % 8) false) (lastByte cfg g) := by
  unfold lastByte
  split
  · next h =>
    have hzero : g.free.toNat % 8 = 0 := by rw [h]; rfl
    rw [hzero]
    exact .fits g (by unfold G4e.Room; simpa [h] using hout) (appends_refl hp)
  · next h =>
    obtain ⟨⟨h1, h8⟩, -⟩ := id hp
    have hne : g.free.toNat ≠ 8 := fun he => h (BitVec.eq_of_toNat_eq he)
    have hspec := emitAcc_spec (wf_maxOut hwf) hp hout (code := 0) (by positivity) g.free
    rw [Nat.mod_eq_of_lt (by omega), ← msbBits_zero]
    simpa using hspec

theorem thenDo_bind (r : Except G4e G4e) (k : G4e → Except G4e G4e) (f : G4e → G4e) :
    G4e.thenDo r (fun g1 => G4e.thenDo (k g1) f) = G4e.thenDo (r.bind k) f := by cases r <;> rfl

/-- What the end of block sends, before the run ends (R237). -/
def sendEnd (cfg : Config) (g : G4e) : Except G4e G4e :=
  ((g.putbits cfg cfg.modeTab.eol).bind (G4e.putbits cfg cfg.modeTab.eol)).bind (lastByte cfg)

theorem endOfBlock_eq (cfg : Config) (g : G4e) :
    g.endOfBlock cfg = G4e.thenDo (sendEnd cfg g) fun h => { h with sh := h.sh.finish h.sh.endFlags } := by
  rw [sendEnd, ← thenDo_bind, ← thenDo_bind]
  rfl

theorem exec_g4Eol (s : State) : exec .g4Eol s = .next { s with g4e := s.g4e.endOfBlock s.cfg } := by
  rfl

theorem wf_eol (h : cfg.wf = true) : cfg.modeTab.eol = ⟨12, 1⟩ := by
  simp only [Config.wf, Bool.and_eq_true, decide_eq_true_eq] at h
  obtain ⟨⟨⟨-, heol⟩, -⟩, -⟩ := h
  exact heol

/-- The bits of the end of block: two `EOL` words, and the zeros that complete the last byte (R237). -/
def endBits (g : G4e) : List Bool :=
  (List.replicate 11 false ++ [true]) ++ (List.replicate 11 false ++ [true]) ++ List.replicate (g.free.toNat % 8) false

theorem endBits_length (g : G4e) : (endBits g).length = 24 + g.free.toNat % 8 := by
  simp only [endBits, List.length_append, List.length_replicate, List.length_singleton, Nat.reduceAdd]

theorem sendEnd_spec (hwf : cfg.wf = true) (hp : g.PackerOk) (hout : g.sh.outLen.toNat ≤ cfg.maxOut) :
    PackSpec cfg g (endBits g) (sendEnd cfg g) := by
  have hok : CodeWord.ok ⟨12, 1⟩ = true := by decide
  have heol : CodeWord.bits ⟨12, 1⟩ = List.replicate 11 false ++ [true] := by decide
  rw [sendEnd, wf_eol hwf, endBits, ← heol]
  refine packSpec_bind (packSpec_bind (putbits_spec hwf hp hout hok) fun g1 h1 hout1 =>
    putbits_spec hwf h1.packer hout1 hok) fun g2 h2 hout2 => ?_
  have hfree := appends_free h2 hp
  have hlen : (CodeWord.bits ⟨12, 1⟩ ++ CodeWord.bits ⟨12, 1⟩).length = 24 := rfl
  have hsame : g.free.toNat % 8 = g2.free.toNat % 8 := by omega
  rw [hsame]
  exact lastByte_spec hwf h2.packer hout2

/-- The whole bytes that the end of block completes. -/
theorem endBits_bytes (hp : g.PackerOk) :
    (8 - g.free.toNat + (endBits g).length) / 8 = (8 - g.free.toNat + 24 + 7) / 8 ∧
      (8 - g.free.toNat + (endBits g).length) % 8 = 0 := by
  obtain ⟨⟨h1, h8⟩, -⟩ := hp
  rw [endBits_length]
  omega

/-- The unit once the end of block is sent: packer empty, `OUT` longer, nothing else changed. -/
theorem endBits_frame {g' : G4e} (hp : g.PackerOk) (h : Appends g g' (endBits g)) :
    g' = { g with
      acc := 0
      free := 8
      sh := { g.sh with
        outBuf := g'.sh.outBuf
        outLen := word (g.sh.outLen.toNat + (8 - g.free.toNat + 24 + 7) / 8) } } := by
  obtain ⟨hbytes, hwhole⟩ := endBits_bytes hp
  obtain ⟨hfree, hacc⟩ := appends_empties h hwhole
  have hout : g'.sh.outLen = word (g.sh.outLen.toNat + (8 - g.free.toNat + 24 + 7) / 8) := by
    rw [← hbytes, ← appends_outLen h, word_of_toNat]
  have hframe := h.frame
  rwa [hfree, hacc, hout] at hframe

end

/-- Settles O37: the end of block sends two `EOL` words and the zeros that complete the last byte, so it leaves the packer
empty. -/
theorem endOfBlock : Obligations.EndOfBlock := by
  unfold Obligations.EndOfBlock
  intro s hp hwf hout
  have hspec := sendEnd_spec hwf hp hout
  have hroom : s.g4e.Room s.cfg (endBits s.g4e).length ↔
      s.g4e.sh.outLen.toNat + (8 - s.g4e.free.toNat + 24 + 7) / 8 ≤ s.cfg.maxOut := by
    rw [G4e.Room, (endBits_bytes hp).left]
  rw [exec_g4Eol, endOfBlock_eq]
  refine ⟨fun hfits => ?_, fun hover => ?_⟩
  · obtain ⟨g', hg', h⟩ := packSpec_ok hspec (hroom.mpr hfits)
    have hsent : g'.sent = s.g4e.sent ++ (List.replicate 11 false ++ [true]) ++ (List.replicate 11 false ++ [true]) ++
        List.replicate (s.g4e.free.toNat % 8) false := by
      simp only [h.sent, endBits, List.append_assoc]
    refine ⟨{ g' with sh := g'.sh.finish g'.sh.endFlags }, s.g4e.free.toNat % 8, by rw [hg']; rfl, ?_,
      Nat.mod_lt _ (by decide), hsent, h.kept⟩
    rw [endBits_frame hp h]
    rfl
  · obtain ⟨g', hg', h⟩ := packSpec_error hspec fun hr => absurd (hroom.mp hr) (Nat.not_le.mpr hover)
    exact ⟨g', by rw [hg']; rfl, h.frame, h.overflowed⟩

end Sys2Proof.Proofs
end

section
/-! PROOFS. PFE's scanline faults and its passes (40_png_filter.md R151, R152, R155). -/

namespace Sys2Proof.Proofs

open Sys2Proof.Machine Sys2Proof.Laws

/-! ### The faults of a record's fetch -/

/-- With no byte left the window is empty. -/
theorem window_nil (u : UnitId) (sh : Shell) (n : Nat) (h : sh.inLen.toNat ≤ sh.inPos.toNat) : sh.window u n = [] :=
  List.eq_nil_of_length_eq_zero (by rw [window_length]; omega)

/-- With a byte left the window begins with the byte at the cursor. -/
theorem window_cons (u : UnitId) (sh : Shell) (n : Nat) (h : sh.inPos.toNat < sh.inLen.toNat) :
    ∃ rest, sh.window u (1 + n) = sh.inByte u sh.inPos.toNat :: rest ∧
      rest.length = min n (sh.inLen.toNat - sh.inPos.toNat - 1) := by
  have hlen := window_length u sh (1 + n)
  have hhead := window_getElem? u sh (1 + n) 0
  rw [if_pos (by omega)] at hhead
  cases hw : sh.window u (1 + n) with
  | nil => rw [hw] at hhead; cases hhead
  | cons b rest =>
    rw [hw] at hhead hlen
    rw [List.length_cons] at hlen
    exact ⟨rest, by rw [Option.some.inj hhead]; rfl, by omega⟩

/-- The whole filter-type byte is compared: 0 to 4 are the filters (30_encoding.md R102). -/
theorem filterOf_eq_none_iff (b : Byte) : filterOf b = none ↔ 4 < b.toNat := by
  unfold filterOf
  split_ifs <;> simp only [false_iff, true_iff] <;> bv_omega

/-- A record without a filter-type byte is `E_TRUNC` (60_exceptions.md R314). -/
theorem pfeFetch_empty {p : Pfe} (h : p.sh.inLen.toNat ≤ p.sh.inPos.toNat) : p.fetch = .error .trunc := by
  rw [Pfe.fetch, window_nil _ _ _ h]
  rfl

/-- A filter-type byte above 4 is `E_FILTER`, however few bytes follow it (60_exceptions.md R320). -/
theorem pfeFetch_badFilter {p : Pfe} (h : p.sh.inPos.toNat < p.sh.inLen.toNat)
    (hft : 4 < (p.sh.inByte .pfe p.sh.inPos.toNat).toNat) : p.fetch = .error .filter := by
  obtain ⟨rest, hw, -⟩ := window_cons .pfe p.sh p.prb.toNat h
  rw [Pfe.fetch, hw, decodeScan, (filterOf_eq_none_iff _).mpr hft]

/-- A record that is too short is `E_TRUNC` where its filter-type byte is legal. -/
theorem pfeFetch_short {p : Pfe} (h : p.sh.inPos.toNat < p.sh.inLen.toNat)
    (hft : (p.sh.inByte .pfe p.sh.inPos.toNat).toNat ≤ 4)
    (hlen : p.sh.inLen.toNat < p.sh.inPos.toNat + 1 + p.prb.toNat) : p.fetch = .error .trunc := by
  obtain ⟨rest, hw, hrest⟩ := window_cons .pfe p.sh p.prb.toNat h
  have hsome : filterOf (p.sh.inByte .pfe p.sh.inPos.toNat) ≠ none := fun hn =>
    absurd ((filterOf_eq_none_iff _).mp hn) (Nat.not_lt.mpr hft)
  obtain ⟨f, hf⟩ := Option.ne_none_iff_exists'.mp hsome
  rw [Pfe.fetch, hw, decodeScan, hf]
  simp only
  rw [if_pos (by omega)]

/-- Settles O20: the three checks of the fetch, in their order, each a fault entry and nothing else. -/
theorem scanlineFaults : Obligations.ScanlineFaults := by
  unfold Obligations.ScanlineFaults
  intro s hb
  have faulted {e : ErrCode} (hf : s.pfe.fetch = .error e) :
      unitStep .pfe s = .next { s with pfe := { s.pfe with sh := s.pfe.sh.Faulted e s.pfe.sh.inPos } } :=
    (unitStep_pfe s hb).trans (pfeStep_faults s e hf)
  exact ⟨fun h => faulted (pfeFetch_empty h), fun h hft => faulted (pfeFetch_badFilter h hft),
    fun h hft hlen => faulted (pfeFetch_short h hft hlen)⟩

/-! ### The passes (R152, R153) -/

/-- A coordinate is one of a pass's exactly where it lies below the bound and has the offset's remainder. -/
theorem exists_stepsBelow_iff {n o st x : Nat} (ho : o < st) (hx : x < n) :
    (∃ k < stepsBelow n o st, x = o + k * st) ↔ x % st = o := by
  constructor
  · rintro ⟨k, -, rfl⟩
    rw [Nat.add_mul_mod_self_right, Nat.mod_eq_of_lt ho]
  · intro h
    have hx' : x = o + x / st * st := by rw [← h, Nat.mul_comm, Nat.mod_add_div]
    exact ⟨x / st, (lt_stepsBelow (by omega)).mpr (hx' ▸ hx), hx'⟩

theorem passes_of_interlaced {p : Pfe} (h : p.interlaced = true) : p.passes = adam7 := by rw [Pfe.passes, if_pos h]

/-- Every offset of a pass is less than its step, and every step divides 8. -/
theorem passes_offsets {p : Pfe} {g : PassGeom} (h : g ∈ p.passes) : g.xo < g.xs ∧ g.yo < g.ys ∧ g.xs ∣ 8 ∧ g.ys ∣ 8 := by
  unfold Pfe.passes at h
  split at h
  · exact (by decide : ∀ g ∈ adam7, g.xo < g.xs ∧ g.yo < g.ys ∧ g.xs ∣ 8 ∧ g.ys ∣ 8) g h
  · exact (by decide : ∀ g ∈ [(⟨0, 0, 1, 1⟩ : PassGeom)], g.xo < g.xs ∧ g.yo < g.ys ∧ g.xs ∣ 8 ∧ g.ys ∣ 8) g h

/-- The columns and rows of a pass by their remainders. -/
abbrev inPass (g : PassGeom) (x y : Nat) : Prop := x % g.xs = g.xo ∧ y % g.ys = g.yo

theorem inPass_mod_eight {p : Pfe} {g : PassGeom} (hg : g ∈ p.passes) (x y : Nat) :
    inPass g (x % 8) (y % 8) ↔ inPass g x y := by
  obtain ⟨-, -, hx, hy⟩ := passes_offsets hg
  rw [inPass, inPass, Nat.mod_mod_of_dvd _ hx, Nat.mod_mod_of_dvd _ hy]

/-- The passes share out a block of 8 by 8 pixels. -/
theorem passes_share_block (p : Pfe) :
    ∀ x y : Fin 8, ∃ n : Fin p.passes.length, ∀ m : Fin p.passes.length, inPass (p.passes.get m) x y ↔ m = n := by
  cases h : p.interlaced with
  | true => rw [passes_of_interlaced h]; decide
  | false => rw [passes_of_not_interlaced h]; decide

/-- The passes repeat in every block, so they share out all positions. -/
theorem existsUnique_inPass (p : Pfe) (x y : Nat) : ∃! n : Nat, ∃ g, p.passes[n]? = some g ∧ inPass g x y := by
  obtain ⟨n, hn⟩ := passes_share_block p (Fin.ofNat 8 x) (Fin.ofNat 8 y)
  have key (m : Fin p.passes.length) : inPass (p.passes.get m) x y ↔ m = n :=
    (inPass_mod_eight (List.get_mem _ m) x y).symm.trans (hn m)
  refine ⟨n, ⟨_, List.getElem?_eq_getElem n.isLt, (key n).mpr rfl⟩, ?_⟩
  rintro m ⟨g, hg, hin⟩
  obtain ⟨hm, rfl⟩ := List.getElem?_eq_some_iff.mp hg
  exact congrArg Fin.val ((key ⟨m, hm⟩).mp hin)

/-- A pixel of the image is one that a pass counts exactly where the pass has its remainders. -/
theorem pass_pixel_iff {p : Pfe} {g : PassGeom} (hg : g ∈ p.passes) {x y : Nat} (hx : x < p.width) (hy : y < p.height) :
    ((∃ k < p.passWidth g, x = g.xo + k * g.xs) ∧ ∃ j < p.passHeight g, y = g.yo + j * g.ys) ↔ inPass g x y := by
  obtain ⟨hxo, hyo, -⟩ := passes_offsets hg
  exact and_congr (exists_stepsBelow_iff hxo hx) (exists_stepsBelow_iff hyo hy)

/-- Settles O19: the passes share out every 8 by 8 block, and `stepsBelow` counts the positions below a bound. -/
theorem passesPartitionTheImage : Obligations.PassesPartitionTheImage := by
  unfold Obligations.PassesPartitionTheImage
  intro p
  refine ⟨passes_of_interlaced, passes_of_not_interlaced, fun x y hx hy => ?_, fun g hg => ?_⟩
  · refine (existsUnique_congr fun n => exists_congr fun g => and_congr_right fun hg => ?_).mpr (existsUnique_inPass p x y)
    exact pass_pixel_iff (List.mem_of_getElem? hg) hx hy
  · obtain ⟨hxs, hys⟩ := passes_steps hg
    exact ⟨fun _ => lt_stepsBelow hxs, fun _ => lt_stepsBelow hys, rfl⟩

end Sys2Proof.Proofs
end

section
/-! PROOFS. What a scanline element does (40_png_filter.md R144 to R158): the reconstructed line, its placement in `OUT`, and how
the unit moves on. -/

namespace Sys2Proof.Proofs

open Sys2Proof.Machine Sys2Proof.Laws

/-! ### What follows a placed scanline (R155, R158) -/

/-- A scanline is followed by the next row, the next pass or the end of the run. -/
theorem endScanline_cases (p : Pfe) :
    p.endScanline = nextRow p ∨ (∃ q g, p.endScanline = (nextRow p).enterPass q g) ∨
      ∃ q fl, p.endScanline = { nextRow p with pass := q, sh := (nextRow p).sh.finish fl } := by
  rw [endScanline_eq]
  split
  · cases hn : (nextRow p).passes[(nextRow p).nextPass (nextRow p).pass.toNat]? with
    | some g => exact .inr (.inl ⟨_, g, endPass_some _ _ g rfl hn⟩)
    | none => exact .inr (.inr ⟨_, _, endPass_none _ _ rfl hn⟩)
  · exact .inl rfl

theorem endScanline_currAt (p : Pfe) (k : Nat) : p.endScanline.currAt k = p.currAt k := by
  rcases endScanline_cases p with h | ⟨q, g, h⟩ | ⟨q, fl, h⟩ <;> rw [h] <;> rfl

theorem endScanline_outByte (p : Pfe) (a : Nat) : p.endScanline.sh.outByte .pfe a = p.sh.outByte .pfe a := by
  rcases endScanline_cases p with h | ⟨q, g, h⟩ | ⟨q, fl, h⟩ <;> rw [h] <;> rfl

/-! ### A scanline in a run -/

/-- PFE with another line and another content of `OUT`: all that reconstruction and placement change. -/
def withLine (p : Pfe) (line out : Mem 8) : Pfe := { p with curr := line, sh := { p.sh with outBuf := out } }

theorem withLine_running {cfg : Config} {p : Pfe} (h : p.Running cfg) (line out : Mem 8) : (withLine p line out).Running cfg :=
  ⟨h.legal, h.pass, h.row⟩

theorem reconstruct_eq_withLine (f : Filter) (raw : List Byte) (p : Pfe) :
    p.reconstruct f 0 raw = withLine p (p.reconstruct f 0 raw).curr p.sh.outBuf :=
  reconstruct_frame f raw 0 p

theorem placed_eq_withLine {cfg : Config} {p : Pfe} {f : Filter} {raw : List Byte} {g : PassGeom} {sh : Shell}
    (h : (p.reconstruct f 0 raw).place cfg g = .ok sh) :
    { p.reconstruct f 0 raw with sh := sh } = withLine p (p.reconstruct f 0 raw).curr sh.outBuf := by
  rw [place_frame h, reconstruct_eq_withLine]
  rfl

/-- The current pass of a run, with its dimensions. -/
theorem running_pass {cfg : Config} {p : Pfe} (h : p.Running cfg) {g : PassGeom} (hg : p.passes[p.pass.toNat]? = some g) :
    g ∈ p.passes ∧ p.pw.toNat = p.passWidth g ∧ p.row.toNat < p.passHeight g ∧ p.prb.toNat = p.passBytes g := by
  obtain ⟨g', hg', hpw, hph, hprb, -⟩ := h.pass
  obtain rfl : g' = g := Option.some.inj (hg'.symm.trans hg)
  exact ⟨List.mem_of_getElem? hg, hpw, hph ▸ h.row, hprb⟩

/-- In a run every scanline can be placed: its row lies on the canvas (R156, R157). -/
theorem place_answers {cfg : Config} {p : Pfe} (h : p.Running cfg) {g : PassGeom} (hg : p.passes[p.pass.toNat]? = some g) :
    ∃ sh, p.place cfg g = .ok sh := by
  obtain ⟨hmem, hpw, hrow, -⟩ := running_pass h hg
  obtain ⟨-, -, -, -, -, -, hsize⟩ := (pfeLegal_iff cfg p).mp h.legal
  unfold Pfe.place
  cases hi : p.interlaced with
  | true =>
    obtain ⟨sh, hsh, -⟩ := pokes_fit cfg.maxOut (p.scatter g) p.sh
      fun q hq => (scatter_inside h.legal hmem hpw hrow q hq).trans_le hsize
    exact ⟨sh, hsh⟩
  | false =>
    rw [passes_of_not_interlaced hi, List.mem_singleton] at hmem
    rw [hmem, Pfe.passHeight, stepsBelow_one] at hrow
    refine ⟨_, storeOut_fits ?_⟩
    rw [Pfe.line, readBlock_length]
    calc p.row.toNat * p.rowBytes + p.rowBytes = p.rowBytes * (p.row.toNat + 1) := by ring
      _ ≤ p.rowBytes * p.height := Nat.mul_le_mul_left _ hrow
      _ ≤ cfg.maxOut := hsize

section
variable {s : State} {raw : List Byte}

/-- A filter element in a run (R155): reconstruction, placement, and what follows them. -/
theorem exec_scanline (hr : s.pfe.Running s.cfg) (hraw : raw.length = s.pfe.prb.toNat) (f : Filter) :
    ∃ g sh, s.pfe.passes[s.pfe.pass.toNat]? = some g ∧ (s.pfe.reconstruct f 0 raw).place s.cfg g = .ok sh ∧
      exec (f.instr raw) s =
        .next { s with pfe := Pfe.endScanline { s.pfe.reconstruct f 0 raw with sh := sh } } := by
  obtain ⟨g, hg, -⟩ := hr.pass
  have hlen : raw.length ≤ lineCells s.cfg := by
    obtain ⟨hmem, -, -, hprb⟩ := running_pass hr hg
    have h1 := passBytes_le hmem
    have h2 := rowBytes_le_lineCells hr.legal
    omega
  obtain ⟨sh, hsh⟩ := place_answers (p := s.pfe.reconstruct f 0 raw) (g := g)
    (by rw [reconstruct_eq_withLine]; exact withLine_running hr _ _) (by rw [reconstruct_eq_withLine]; exact hg)
  have hscan := (scanline_eq_ok s.cfg f raw s.pfe _).mpr ⟨hlen, hr.row, g, sh, hg, hsh, rfl⟩
  exact ⟨g, sh, hg, hsh, by rw [exec_filter, runScanline, hscan, settle_ok]⟩

/-- The line after a placed scanline is the reconstructed one. -/
theorem placed_currAt {cfg : Config} {p : Pfe} {g : PassGeom} {sh : Shell} (h : p.place cfg g = .ok sh) (k : Nat) :
    (Pfe.endScanline { p with sh := sh }).currAt k = p.currAt k := by
  rw [endScanline_currAt, place_frame h]
  rfl

/-! ### The reconstructed line (R145 to R150) -/

theorem addByte_toNat (r : Byte) (n : Nat) : (addByte r n).toNat = (r.toNat + n) % 256 := by
  rw [addByte, BitVec.toNat_ofNat]

/-- Every byte of the line after a filter element: the raw byte plus the prediction, mod 256. -/
theorem exec_scanline_line (hr : s.pfe.Running s.cfg) (hraw : raw.length = s.pfe.prb.toNat) (f : Filter) :
    ∃ t, exec (f.instr raw) s = .next t ∧ ∀ k < raw.length, (t.pfe.currAt k).toNat =
      ((raw.getD k 0).toNat + predict f (if s.pfe.bpp ≤ k then (t.pfe.currAt (k - s.pfe.bpp)).toNat else 0)
        (s.pfe.above k) (s.pfe.aboveLeft k)) % 256 := by
  obtain ⟨g, sh, -, hsh, he⟩ := exec_scanline hr hraw f
  refine ⟨_, he, fun k hk => ?_⟩
  have hbyte := reconstruct_inside f raw 0 s.pfe k hk
  simp only [Nat.zero_add] at hbyte
  simp only [placed_currAt hsh]
  rw [hbyte, addByte_toNat, List.getD_eq_getElem _ _ hk]

/-- `paeth` picks the candidate that R149 names. -/
theorem paeth_spec (a b c : Nat) : PaethIs a b c (paeth a b c) := by
  unfold PaethIs paeth
  simp only [Int.abs_eq_natAbs, Int.ofNat_le]
  split_ifs with ha hb
  · exact .inl ⟨ha.1, ha.2, rfl⟩
  · exact .inr (.inl ⟨ha, hb, rfl⟩)
  · exact .inr (.inr ⟨ha, hb, rfl⟩)

end

/-- Settles O11: the prediction is 0. -/
theorem ftNone : Obligations.FtNone := by
  unfold Obligations.FtNone
  intro s raw hr _ hraw
  obtain ⟨t, he, hline⟩ := exec_scanline_line hr hraw .none
  refine ⟨decode_filter .none raw, t, he, fun k hk => BitVec.eq_of_toNat_eq ?_⟩
  rw [hline k hk]
  exact Nat.mod_eq_of_lt (raw.getD k 0).isLt

/-- Settles O12: the prediction is the left byte. -/
theorem ftSub : Obligations.FtSub := by
  unfold Obligations.FtSub
  intro s raw hr _ hraw
  exact ⟨decode_filter .sub raw, exec_scanline_line hr hraw .sub⟩

/-- Settles O13: the prediction is the upper byte. -/
theorem ftUp : Obligations.FtUp := by
  unfold Obligations.FtUp
  intro s raw hr _ hraw
  exact ⟨decode_filter .up raw, exec_scanline_line hr hraw .up⟩

/-- Settles O14: the prediction is half the exact sum of the left and the upper byte. -/
theorem ftAvg : Obligations.FtAvg := by
  unfold Obligations.FtAvg
  intro s raw hr _ hraw
  exact ⟨decode_filter .avg raw, exec_scanline_line hr hraw .avg⟩

/-- Settles O15: the prediction is Paeth's, which R149 determines. -/
theorem ftPaeth : Obligations.FtPaeth := by
  unfold Obligations.FtPaeth
  intro s raw hr _ hraw
  obtain ⟨t, he, hline⟩ := exec_scanline_line hr hraw .paeth
  exact ⟨decode_filter .paeth raw, t, he, fun k hk => ⟨_, paeth_spec _ _ _, hline k hk⟩⟩

/-! ### How the unit moves on (R154, R155, R158) -/

/-- The prior row after a scanline is the line (R155). -/
theorem nextRow_priorAt (p : Pfe) (k : Nat) :
    (nextRow p).priorAt k = if k < p.prb.toNat then p.currAt k else p.priorAt k := by
  have hcell := cell_store .prior p.sh.inGen p.prior 0 (p.line p.prb.toNat) k
  rw [if_pos (Nat.zero_le k), Nat.sub_zero, List.getD_eq_getElem?_getD, Pfe.line, readBlock_getElem?] at hcell
  refine hcell.trans ?_
  split
  · rw [Nat.zero_add]; rfl
  · rfl

/-- A pass entered has a zero prior row (R154). -/
theorem enterPass_priorAt (p : Pfe) (q : Nat) (g : PassGeom) (k : Nat) :
    (p.enterPass q g).priorAt k = if k < p.passBytes g then 0 else p.priorAt k := by
  rw [Pfe.priorAt, enterPass_prior, enterPass_sh, cell_store, if_pos (Nat.zero_le k), Nat.sub_zero]
  split
  · next h => rw [List.getD_replicate _ h]
  · next h => rw [List.getD_eq_default _ _ (by rw [List.length_replicate]; omega)]; rfl

section
variable {p : Pfe}

theorem endScanline_inside (h : p.row.toNat + 1 < p.ph.toNat) : p.endScanline = nextRow p := by
  rw [endScanline_eq, if_neg fun he => ?_]
  have hnat := congrArg BitVec.toNat he
  rw [word_toNat_of_lt (by have := p.ph.isLt; omega)] at hnat
  omega

theorem endScanline_last (h : p.row.toNat + 1 = p.ph.toNat) : p.endScanline = (nextRow p).endPass := by
  rw [endScanline_eq, if_pos (by rw [h, word_of_toNat])]

/-- The next pass is the least later one that has scanlines. -/
theorem nextPass_eq_least {q m : Nat} (hq : q < p.passes.length) {g : PassGeom} (hm : q < m) (hg : p.passes[m]? = some g)
    (hf : p.passFull g = true)
    (hleast : ∀ m' g', q < m' ∧ p.passes[m']? = some g' ∧ p.passFull g' = true → m ≤ m') : p.nextPass q = m := by
  obtain ⟨hlt, -, hempty, hfull⟩ := nextPass_spec p q hq
  have hmlen := (List.getElem?_eq_some_iff.mp hg).1
  have hle : p.nextPass q ≤ m := Nat.le_of_not_lt fun hgt => by simp [hempty m g hm hgt hg] at hf
  have hn : p.passes[p.nextPass q]? = some _ := List.getElem?_eq_getElem (by omega)
  exact le_antisymm hle (hleast _ _ ⟨hlt, hn, hfull _ hn⟩)

/-- There is no next pass where no later one has scanlines. -/
theorem nextPass_eq_length {q : Nat} (hq : q < p.passes.length)
    (hnone : ∀ m g, ¬(q < m ∧ p.passes[m]? = some g ∧ p.passFull g = true)) : p.nextPass q = p.passes.length := by
  obtain ⟨hlt, hle, -, hfull⟩ := nextPass_spec p q hq
  refine le_antisymm hle (Nat.le_of_not_lt fun hgt => ?_)
  have hn : p.passes[p.nextPass q]? = some _ := List.getElem?_eq_getElem hgt
  exact hnone _ _ ⟨hlt, hn, hfull _ hn⟩

/-- The last scanline of a pass before another: that pass is entered. -/
theorem endScanline_nextPass (hrow : p.row.toNat + 1 = p.ph.toNat) {m : Nat} (hm : p.nextPass p.pass.toNat = m)
    {g : PassGeom} (hg : p.passes[m]? = some g) : p.endScanline = (nextRow p).enterPass m g := by
  rw [endScanline_last hrow, endPass_some _ m g ((nextRow_nextPass p).trans hm) hg]

/-- The last scanline of the last pass ends the run. -/
theorem endScanline_done (hrow : p.row.toNat + 1 = p.ph.toNat) (hm : p.nextPass p.pass.toNat = p.passes.length) :
    p.endScanline = { nextRow p with
      pass := BitVec.ofNat 4 p.passes.length
      sh := (nextRow p).sh.finish (nextRow p).sh.endFlags } := by
  rw [endScanline_last hrow, endPass_none _ p.passes.length ((nextRow_nextPass p).trans hm)]
  exact List.getElem?_eq_none (le_refl _)

end

/-- Settles O16: after the line is placed, the three ways on are `nextRow`, `enterPass` and the end of the run. -/
theorem scanlineMovesOn : Obligations.ScanlineMovesOn := by
  unfold Obligations.ScanlineMovesOn
  intro s f raw hr _ hraw
  obtain ⟨g0, sh, hg0, hsh, he⟩ := exec_scanline hr hraw f
  have hpass : s.pfe.pass.toNat < s.pfe.passes.length := (List.getElem?_eq_some_iff.mp hg0).1
  have hpos : word (s.pfe.sh.inPos.toNat + (1 + s.pfe.prb.toNat)) = word (s.pfe.sh.inPos.toNat + 1 + s.pfe.prb.toNat) := by
    rw [Nat.add_assoc]
  refine ⟨_, he, fun k hk => ?outside, ?inside, ?nextPass, ?done⟩
  case outside => exact (placed_currAt hsh k).trans (reconstruct_outside f raw 0 s.pfe k (.inr (by omega)))
  all_goals
    rw [placed_eq_withLine hsh]
    generalize (s.pfe.reconstruct f 0 raw).curr = line
    generalize sh.outBuf = out
  case inside =>
    intro hrow
    rw [endScanline_inside (p := withLine s.pfe line out) hrow]
    exact ⟨by rw [← hpos]; rfl, nextRow_priorAt _⟩
  case nextPass =>
    intro hrow m g ⟨hm, hg, hf⟩ hleast
    have hnext := nextPass_eq_least (p := withLine s.pfe line out) hpass hm hg hf hleast
    rw [endScanline_nextPass (p := withLine s.pfe line out) hrow hnext hg]
    refine ⟨by rw [← hpos]; rfl, fun k => ?_⟩
    dsimp only
    rw [enterPass_priorAt, nextRow_priorAt]
    rfl
  case done =>
    intro hrow hnone
    have hnext := nextPass_eq_length (p := withLine s.pfe line out) hpass hnone
    rw [endScanline_done (p := withLine s.pfe line out) hrow hnext]
    exact ⟨by rw [← hpos]; rfl, nextRow_priorAt _⟩

/-! ### Placement without interlacing (R156) -/

theorem line_getD (p : Pfe) {n k : Nat} (h : k < n) : (p.line n).getD k 0 = p.currAt k := by
  rw [List.getD_eq_getElem?_getD, Pfe.line, readBlock_getElem?, if_pos h, Nat.zero_add]
  rfl

/-- The line is stored as a block, from the first byte of image row `ROW` on. -/
theorem place_row_outByte {cfg : Config} {p : Pfe} (hi : p.interlaced = false) {g : PassGeom} {sh : Shell}
    (h : p.place cfg g = .ok sh) (a : Nat) :
    sh.outByte .pfe a =
      if p.row.toNat * p.rowBytes ≤ a ∧ a < p.row.toNat * p.rowBytes + p.rowBytes
      then p.currAt (a - p.row.toNat * p.rowBytes) else p.sh.outByte .pfe a := by
  rw [Pfe.place, hi] at h
  obtain ⟨-, rfl⟩ := (storeOut_eq_ok _ _ _ _ _ _).mp h
  rw [outByte_store, Pfe.line, readBlock_length, ← Pfe.line]
  split
  · exact line_getD p (by omega)
  · rfl

/-- Settles O17: the one pass is the whole image, and its line is stored as a block. -/
theorem placementNonInterlaced : Obligations.PlacementNonInterlaced := by
  unfold Obligations.PlacementNonInterlaced
  intro s f raw hr _ hraw hi
  obtain ⟨g, sh, hg, hsh, he⟩ := exec_scanline hr hraw f
  have hrow : s.pfe.prb.toNat = s.pfe.rowBytes := by
    obtain ⟨hmem, -, -, hprb⟩ := running_pass hr hg
    rw [passes_of_not_interlaced hi, List.mem_singleton] at hmem
    rw [hprb, hmem, Pfe.passBytes, Pfe.passWidth, stepsBelow_one]
    rfl
  refine ⟨_, he, hrow, fun a => ?_⟩
  have hrec := reconstruct_eq_withLine f raw s.pfe
  have hout := place_row_outByte (by rw [hrec]; exact hi) hsh a
  dsimp only
  rw [endScanline_outByte, placed_currAt hsh]
  rw [reconstruct_eq_withLine] at hout ⊢
  exact hout

end Sys2Proof.Proofs
end

section
/-! PROOFS. Where the pixels of an interlaced scanline go, bit by bit (40_png_filter.md R157). -/

namespace Sys2Proof.Proofs

open Sys2Proof.Machine Sys2Proof.Laws

/-! ### Masked stores, bit by bit -/

/-- The masked store writes bit `o` of `OUT`, counted most significant bit first. -/
def covers (q : Poke) (o : Nat) : Bool := q.cellAt == o / 8 && q.mask.getLsbD (7 - o % 8)

/-- The value a masked store has for bit `o` of `OUT`. -/
def pokeBit (q : Poke) (o : Nat) : Bool := q.val.getLsbD (7 - o % 8)

/-- The value of a masked store has no bit outside the mask. -/
def Masked (q : Poke) : Prop := ∀ i, q.val.getLsbD i = true → q.mask.getLsbD i = true

theorem poke_bitAt {maxOut : Nat} {sh sh' : Shell} {q : Poke} (h : sh.poke maxOut q = .ok sh') (hq : Masked q) (o : Nat) :
    bitAt (sh'.outByte .pfe) o = if covers q o then pokeBit q o else bitAt (sh.outByte .pfe) o := by
  obtain ⟨-, rfl⟩ := (storeOut_eq_ok _ _ _ _ _ _).mp h
  have hlt : 7 - o % 8 < 8 := by omega
  unfold bitAt covers pokeBit
  rw [outByte_store]
  by_cases hc : q.cellAt = o / 8
  · rw [if_pos (by simp; omega), ← hc]
    have hmask := hq (7 - o % 8)
    cases hm : q.mask.getLsbD (7 - o % 8) <;> simp_all
  · rw [if_neg (by simp; omega), if_neg (by simp [hc])]

/-- Masked stores that agree on a bit: it takes their value where one of them writes it, and keeps its own where none does. -/
theorem pokes_bitAt (maxOut : Nat) (o : Nat) (v : Bool) (ks : List Poke) : ∀ {sh sh' : Shell}, sh.pokes maxOut ks = .ok sh' →
    (∀ q ∈ ks, Masked q) → (∀ q ∈ ks, covers q o = true → pokeBit q o = v) →
    bitAt (sh'.outByte .pfe) o = if ks.any (covers · o) then v else bitAt (sh.outByte .pfe) o := by
  induction ks with
  | nil =>
    intro sh sh' h _ _
    obtain rfl : sh = sh' := Except.ok.inj h
    rfl
  | cons q ks ih =>
    intro sh sh' h hm hv
    rw [Shell.pokes] at h
    split at h
    · next sh1 h1 =>
      rw [List.forall_mem_cons] at hm hv
      rw [ih h hm.2 hv.2, poke_bitAt h1 hm.1, List.any_cons]
      cases hc : covers q o with
      | false => simp
      | true => simp [hv.1 hc]
    · cases h

/-! ### The masked stores of a pixel -/

/-- The bit of `OUT` that bit `j` of column `x` of image row `y` is. -/
def pixelBit (p : Pfe) (x y j : Nat) : Nat := 8 * (y * p.rowBytes) + x * p.pixBits + j

/-- The masked stores of pixel `k` write exactly the bits of column `x` of row `y`, each with the line's bit. -/
structure WritesPixel (p : Pfe) (x y k : Nat) (ks : List Poke) : Prop where
  masked : ∀ q ∈ ks, Masked q
  onlyPixel : ∀ q ∈ ks, ∀ o, covers q o = true →
    ∃ j < p.pixBits, o = pixelBit p x y j ∧ pokeBit q o = bitAt p.currAt (k * p.pixBits + j)
  wholePixel : ∀ j < p.pixBits, ∃ q ∈ ks, covers q (pixelBit p x y j) = true

theorem fullMask_getLsbD {i : Nat} (h : i < 8) : (0xFF : Byte).getLsbD i = true :=
  (by decide : ∀ i < 8, (0xFF : Byte).getLsbD i = true) i h

/-- A store of a whole byte covers its eight bits. -/
theorem covers_byte (a : Nat) (v : Byte) (o : Nat) : covers ⟨a, 0xFF, v⟩ o = true ↔ a = o / 8 := by
  rw [covers, fullMask_getLsbD (by omega), Bool.and_true, beq_iff_eq]

theorem pixBits_whole {cfg : Config} {p : Pfe} (hl : p.legal cfg = true) (h8 : 8 ≤ p.pixBits) : p.pixBits = 8 * p.bpp :=
  (by decide : ∀ n ∈ [1, 2, 4, 8, 16, 24, 32, 48, 64], 8 ≤ n → n = 8 * max 1 (n / 8)) _ (pixBits_of_legal hl) h8

/-- Pixels of whole bytes are stored byte by byte. -/
theorem writesPixel_bytes {cfg : Config} {p : Pfe} (hl : p.legal cfg = true) (h8 : 8 ≤ p.pixBits) (x y k : Nat) :
    WritesPixel p x y k (p.pixelPokes x y k) := by
  have hpix := pixBits_whole hl h8
  have hmul (n : Nat) : n * p.pixBits = 8 * (n * p.bpp) := by rw [hpix]; ring
  have hks : p.pixelPokes x y k =
      (List.range p.bpp).map fun j => ⟨y * p.rowBytes + x * p.bpp + j, 0xFF, p.currAt (k * p.bpp + j)⟩ := by
    rw [Pfe.pixelPokes, if_pos h8]
  rw [hks]
  refine ⟨fun q hq => ?_, fun q hq o ho => ?_, fun j hj => ?_⟩
  · obtain ⟨j, -, rfl⟩ := List.mem_map.mp hq
    exact fun i hi => fullMask_getLsbD (BitVec.lt_of_getLsbD hi)
  · obtain ⟨b, hb, rfl⟩ := List.mem_map.mp hq
    have hb : b < p.bpp := List.mem_range.mp hb
    have ho := (covers_byte _ _ _).mp ho
    refine ⟨8 * b + o % 8, by omega, ?_, ?_⟩
    · rw [pixelBit, hmul]; omega
    · have hbyte : (8 * (k * p.bpp) + (8 * b + o % 8)) / 8 = k * p.bpp + b := by omega
      have hbit : (8 * (k * p.bpp) + (8 * b + o % 8)) % 8 = o % 8 := by omega
      rw [hmul, bitAt, hbyte, hbit, pokeBit]
  · refine ⟨_, List.mem_map.mpr ⟨j / 8, List.mem_range.mpr (by omega), rfl⟩, (covers_byte _ _ _).mpr ?_⟩
    rw [pixelBit, hmul]
    omega

/-- A pixel of part of a byte lies within one byte. -/
theorem mul_pixBits_mod {cfg : Config} {p : Pfe} (hl : p.legal cfg = true) (h8 : ¬8 ≤ p.pixBits) (n : Nat) :
    n * p.pixBits % 8 + p.pixBits ≤ 8 := by
  have hsmall : p.pixBits = 1 ∨ p.pixBits = 2 ∨ p.pixBits = 4 :=
    (by decide : ∀ m ∈ [1, 2, 4, 8, 16, 24, 32, 48, 64], ¬8 ≤ m → m = 1 ∨ m = 2 ∨ m = 4) _ (pixBits_of_legal hl) h8
  rcases hsmall with h | h | h <;> rw [h] <;> omega

/-- The bits `s` to `s + n - 1` of a byte. -/
theorem fieldMask_getLsbD (n s i : Nat) :
    (BitVec.ofNat 8 ((2 ^ n - 1) <<< s)).getLsbD i = decide (i < 8 ∧ s ≤ i ∧ i < s + n) := by
  simp only [BitVec.getLsbD_ofNat, Nat.testBit_shiftLeft, Nat.testBit_two_pow_sub_one]
  grind

/-- `n` bits of a byte, from bit `r` on, moved to bit `s`. -/
theorem fieldVal_getLsbD (b : Byte) (n r s i : Nat) :
    (BitVec.ofNat 8 ((b.toNat >>> r &&& (2 ^ n - 1)) <<< s)).getLsbD i =
      (decide (i < 8 ∧ s ≤ i ∧ i < s + n) && b.getLsbD (r + (i - s))) := by
  simp only [BitVec.getLsbD_ofNat, Nat.testBit_shiftLeft, Nat.testBit_and, Nat.testBit_shiftRight,
    Nat.testBit_two_pow_sub_one, BitVec.testBit_toNat]
  grind

/-- A store of a field covers the field's bits of its byte. -/
theorem covers_field (a n s : Nat) (v : Byte) (o : Nat) :
    covers ⟨a, BitVec.ofNat 8 ((2 ^ n - 1) <<< s), v⟩ o = true ↔ a = o / 8 ∧ s ≤ 7 - o % 8 ∧ 7 - o % 8 < s + n := by
  rw [covers, fieldMask_getLsbD, Bool.and_eq_true, beq_iff_eq, decide_eq_true_eq]
  exact and_congr_right fun _ => ⟨fun h => h.2, fun h => ⟨by omega, h⟩⟩

/-- A pixel of part of a byte is stored as a field of one byte. -/
theorem writesPixel_field {cfg : Config} {p : Pfe} (hl : p.legal cfg = true) (h8 : ¬8 ≤ p.pixBits) (x y k : Nat) :
    WritesPixel p x y k (p.pixelPokes x y k) := by
  have hx := mul_pixBits_mod hl h8 x
  have hk := mul_pixBits_mod hl h8 k
  rw [Pfe.pixelPokes, if_neg h8]
  refine ⟨fun q hq => ?_, fun q hq o ho => ?_, fun j hj => ⟨_, List.mem_singleton_self _, ?_⟩⟩
  · obtain rfl := List.mem_singleton.mp hq
    intro i hi
    rw [fieldVal_getLsbD] at hi
    rw [fieldMask_getLsbD]
    exact Bool.and_elim_left hi
  · obtain rfl := List.mem_singleton.mp hq
    obtain ⟨hcell, hlow, hhigh⟩ := (covers_field _ _ _ _ _).mp ho
    refine ⟨o % 8 - x * p.pixBits % 8, by omega, by rw [pixelBit]; omega, ?_⟩
    have hbyte : (k * p.pixBits + (o % 8 - x * p.pixBits % 8)) / 8 = k * p.pixBits / 8 := by omega
    have hbit : 7 - (k * p.pixBits + (o % 8 - x * p.pixBits % 8)) % 8 =
        8 - p.pixBits - k * p.pixBits % 8 + (7 - o % 8 - (8 - p.pixBits - x * p.pixBits % 8)) := by omega
    rw [pokeBit, fieldVal_getLsbD, bitAt, hbyte, hbit, decide_eq_true ⟨by omega, hlow, hhigh⟩, Bool.true_and]
  · refine (covers_field _ _ _ _ _).mpr ?_
    rw [pixelBit]
    generalize y * p.rowBytes = row, x * p.pixBits = col at hx ⊢
    omega

theorem writesPixel {cfg : Config} {p : Pfe} (hl : p.legal cfg = true) (x y k : Nat) :
    WritesPixel p x y k (p.pixelPokes x y k) := by
  by_cases h8 : 8 ≤ p.pixBits
  · exact writesPixel_bytes hl h8 x y k
  · exact writesPixel_field hl h8 x y k

/-! ### The masked stores of a scanline -/

/-- A bit of the image is the same bit of only one column. -/
theorem pixelBit_injective {p : Pfe} {x x' y j j' : Nat} (hj : j < p.pixBits) (hj' : j' < p.pixBits)
    (h : pixelBit p x y j = pixelBit p x' y j') : x = x' ∧ j = j' := by
  have hcol : x * p.pixBits + j = x' * p.pixBits + j' := by
    unfold pixelBit at h
    omega
  have hdiv {a b : Nat} (hb : b < p.pixBits) : (a * p.pixBits + b) / p.pixBits = a := by
    rw [Nat.add_comm, Nat.add_mul_div_right _ _ (Nat.zero_lt_of_lt hb), Nat.div_eq_of_lt hb, Nat.zero_add]
  obtain rfl : x = x' := (hdiv hj).symm.trans (hcol ▸ hdiv hj')
  exact ⟨rfl, Nat.add_left_cancel hcol⟩

/-- The bit of `OUT` that bit `j` of pixel `k` of a pass's current scanline goes to (R157). -/
def scanBit (p : Pfe) (g : PassGeom) (k j : Nat) : Nat := pixelBit p (g.xo + k * g.xs) (g.yo + p.row.toNat * g.ys) j

theorem scanBit_injective {p : Pfe} {g : PassGeom} (hs : 0 < g.xs) {k k' j j' : Nat} (hj : j < p.pixBits)
    (hj' : j' < p.pixBits) (h : scanBit p g k j = scanBit p g k' j') : k = k' ∧ j = j' := by
  obtain ⟨hx, hjj⟩ := pixelBit_injective hj hj' h
  exact ⟨Nat.eq_of_mul_eq_mul_right hs (Nat.add_left_cancel hx), hjj⟩

/-- The masked stores of a scanline write exactly the bits of its pixels, each with the line's bit. -/
structure WritesScan (p : Pfe) (g : PassGeom) (ks : List Poke) : Prop where
  masked : ∀ q ∈ ks, Masked q
  onlyScan : ∀ q ∈ ks, ∀ o, covers q o = true → ∃ k < p.pw.toNat, ∃ j < p.pixBits,
    o = scanBit p g k j ∧ pokeBit q o = bitAt p.currAt (k * p.pixBits + j)
  wholeScan : ∀ k < p.pw.toNat, ∀ j < p.pixBits, ∃ q ∈ ks, covers q (scanBit p g k j) = true

theorem writesScan_scatter {cfg : Config} {p : Pfe} (hl : p.legal cfg = true) (g : PassGeom) :
    WritesScan p g (p.scatter g) := by
  have hpixel (k : Nat) := writesPixel hl (g.xo + k * g.xs) (g.yo + p.row.toNat * g.ys) k
  refine ⟨fun q hq => ?_, fun q hq o ho => ?_, fun k hk j hj => ?_⟩
  · obtain ⟨k, -, hq⟩ := List.mem_flatMap.mp hq
    exact (hpixel k).masked q hq
  · obtain ⟨k, hk, hq⟩ := List.mem_flatMap.mp hq
    exact ⟨k, List.mem_range.mp hk, (hpixel k).onlyPixel q hq o ho⟩
  · obtain ⟨q, hq, hc⟩ := (hpixel k).wholePixel j hj
    exact ⟨q, List.mem_flatMap.mpr ⟨k, List.mem_range.mpr hk, hq⟩, hc⟩

section
variable {cfg : Config} {p : Pfe} {g : PassGeom} {sh : Shell}

/-- Placing a scanline of a pass puts every bit of its pixels where it belongs. -/
theorem place_pass_pixel (hl : p.legal cfg = true) (hs : 0 < g.xs) (hi : p.interlaced = true)
    (h : p.place cfg g = .ok sh) {k j : Nat} (hk : k < p.pw.toNat) (hj : j < p.pixBits) :
    bitAt (sh.outByte .pfe) (scanBit p g k j) = bitAt p.currAt (k * p.pixBits + j) := by
  have hw := writesScan_scatter hl g
  rw [Pfe.place, if_pos hi] at h
  rw [pokes_bitAt cfg.maxOut (scanBit p g k j) (bitAt p.currAt (k * p.pixBits + j)) _ h hw.masked ?agree, if_pos ?covered]
  case agree =>
    intro q hq hc
    obtain ⟨k', -, j', hj', ho, hbit⟩ := hw.onlyScan q hq _ hc
    obtain ⟨rfl, rfl⟩ := scanBit_injective hs hj hj' ho
    exact hbit
  case covered => exact List.any_eq_true.mpr (hw.wholeScan k hk j hj)

/-- Placing a scanline of a pass leaves every other bit. -/
theorem place_pass_outside (hl : p.legal cfg = true) (hi : p.interlaced = true) (h : p.place cfg g = .ok sh) {o : Nat}
    (ho : ∀ k j, k < p.pw.toNat → j < p.pixBits → o ≠ scanBit p g k j) :
    bitAt (sh.outByte .pfe) o = bitAt (p.sh.outByte .pfe) o := by
  have hw := writesScan_scatter hl g
  have hnone : ∀ q ∈ p.scatter g, covers q o ≠ true := fun q hq hc => by
    obtain ⟨k, hk, j, hj, heq, -⟩ := hw.onlyScan q hq o hc
    exact ho k j hk hj heq
  rw [Pfe.place, if_pos hi] at h
  rw [pokes_bitAt cfg.maxOut o false _ h hw.masked fun q hq hc => absurd hc (hnone q hq), if_neg]
  simpa using hnone

end

/-- Settles O18: the masked stores of the line write its pixels' bits and no other. -/
theorem placementInterlaced : Obligations.PlacementInterlaced := by
  unfold Obligations.PlacementInterlaced
  intro s f raw g hr _ hraw hi hg
  obtain ⟨g', sh, hg', hsh, he⟩ := exec_scanline hr hraw f
  obtain rfl : g' = g := Option.some.inj (hg'.symm.trans hg)
  have hs := (passes_steps (List.mem_of_getElem? hg)).1
  have hrec := reconstruct_eq_withLine f raw s.pfe
  have hlegal : (s.pfe.reconstruct f 0 raw).legal s.cfg = true := by rw [hrec]; exact hr.legal
  have hlaced : (s.pfe.reconstruct f 0 raw).interlaced = true := by rw [hrec]; exact hi
  have hpixel := @place_pass_pixel _ _ _ _ hlegal hs hlaced hsh
  have houtside := @place_pass_outside _ _ _ _ hlegal hlaced hsh
  refine ⟨_, he, ?_⟩
  dsimp only
  rw [funext (endScanline_outByte _), funext (placed_currAt hsh)]
  rw [reconstruct_eq_withLine] at hpixel houtside ⊢
  exact ⟨@hpixel, @houtside⟩

end Sys2Proof.Proofs
end

section
/-! PROOFS. A step runs the element decoded at the cursor of the agent whose turn it is (00_scope.md, 42_g4_encoder.md R230). -/

namespace Sys2Proof.Proofs

open Sys2Proof.Machine Sys2Proof.Laws

/-! ### The byte-oriented units -/

theorem pfeFetch_of_decode {p : Pfe} {i : Instr} {bs : List Byte}
    (h : decodeScan p.prb.toNat (p.sh.window .pfe (1 + p.prb.toNat)) = .ok (i, bs)) : p.fetch = .ok i := by
  rw [Pfe.fetch, h]

theorem rldFetch_of_decode {r : Rld} {i : Instr} {bs : List Byte}
    (h : decodeRle r.mode4 (r.sh.window .rld 258) = .ok (i, bs)) : r.fetch = .ok i := by
  rw [Rld.fetch, h]

/-! ### G4E: what is due in a turn (42_g4_encoder.md R230) -/

theorem g4eStep_pending (s : State) (h : s.g4e.pend ≠ []) : g4eStep s = drain s.g4e.pend s := by
  rw [g4eStep, if_pos (by simpa using h)]

theorem g4eStep_mode (s : State) (hp : s.g4e.pend = []) (hi : s.g4e.inrow = true) :
    g4eStep s = runMode s.g4e.mode s := by
  rw [g4eStep, if_neg (by simp [hp]), if_pos hi]

theorem g4eStep_endOfBlock (s : State) (hp : s.g4e.pend = []) (hi : s.g4e.inrow = false)
    (hrow : s.g4e.row.toNat = s.g4e.height) : g4eStep s = exec .g4Eol s := by
  rw [g4eStep, if_neg (by simp [hp]), if_neg (by simp [hi]), if_pos hrow]

/-! ### G4E: only a horizontal mode leaves run words -/

theorem afterMode_keeps_pend (g : G4e) : g.afterMode.pend = g.pend := by
  unfold G4e.afterMode
  split <;> rfl

/-- A word and a continuation that leaves `pend` alone leave it alone. -/
theorem thenDo_putbits_pend (cfg : Config) (c : CodeWord) (g : G4e) {k : G4e → G4e} (hk : ∀ g1, (k g1).pend = g1.pend) :
    (G4e.thenDo (g.putbits cfg c) k).pend = g.pend := by
  have hframe : (packed (g.putbits cfg c)).pend = g.pend := by rw [putbits_frame cfg c g]
  cases hr : g.putbits cfg c with
  | error g1 => rwa [hr] at hframe
  | ok g1 => rw [hr] at hframe; exact (hk g1).trans hframe

theorem passMode_pend (cfg : Config) (g : G4e) : (g.passMode cfg).pend = g.pend :=
  thenDo_putbits_pend cfg _ g fun _ => afterMode_keeps_pend _

theorem vertical_pend (cfg : Config) (w : CodeWord) (g : G4e) : (g.vertical cfg w).pend = g.pend :=
  thenDo_putbits_pend cfg w g fun _ => afterMode_keeps_pend _

/-- Pass and vertical modes leave no run words (R231, R232). -/
theorem exec_mode_pend (s : State) (h : s.g4e.mode ≠ .g4H) :
    ∃ t, exec s.g4e.mode s = .next { s with g4e := t } ∧ t.pend = s.g4e.pend := by
  revert h
  unfold G4e.mode
  split
  · exact fun _ => ⟨_, rfl, passMode_pend _ _⟩
  · unfold verticalOf
    split_ifs <;> intro h
    · exact ⟨_, rfl, vertical_pend _ s.cfg.modeTab.vr3 _⟩
    · exact ⟨_, rfl, vertical_pend _ s.cfg.modeTab.vr2 _⟩
    · exact ⟨_, rfl, vertical_pend _ s.cfg.modeTab.vr1 _⟩
    · exact ⟨_, rfl, vertical_pend _ s.cfg.modeTab.v0 _⟩
    · exact ⟨_, rfl, vertical_pend _ s.cfg.modeTab.vl1 _⟩
    · exact ⟨_, rfl, vertical_pend _ s.cfg.modeTab.vl2 _⟩
    · exact ⟨_, rfl, vertical_pend _ s.cfg.modeTab.vl3 _⟩
    · exact absurd rfl h

/-- A mode that leaves no run words is the whole of its step. -/
theorem runMode_of_no_runs {s t : State} {i : Instr} (he : exec i s = .next t) (hp : t.g4e.pend = []) :
    runMode i s = exec i s := by
  rw [runMode_next s t i he, hp, drain_nil, ite_self, he]

/-- A single run word is the whole of its step. -/
theorem drain_single {s t : State} {w : RunWord} {i : Instr} (hi : w.instr = some i)
    (he : exec i { s with g4e := { s.g4e with pend := [] } } = .next t) : drain [w] s = .next t := by
  rw [drain_cons s w [] i t hi he, drain_nil, ite_self]

/-! ### The host -/

theorem hostAct_command (s : State) {u : UnitId} {v : Word} {i : Instr} (h : decodeCmd u v = .ok i) :
    hostAct (.write u 0 v) s = exec i s := by
  rw [hostAct, if_pos rfl, h]

/-- Settles O7: one clause for each agent, from the law of its turn. -/
theorem stepRunsDecodedElement : Obligations.StepRunsDecodedElement := by
  unfold Obligations.StepRunsDecodedElement
  refine ⟨?pfe, ?rld, ?lzd, ?mode, ?horizontal, ?endOfBlock, ?runWord, ?host⟩
  case pfe =>
    intro s s1 i bs hturn hb hd
    rw [step_unit s s1 .pfe hturn, unitStep_pfe s1 hb, pfeStep_runs s1 i (pfeFetch_of_decode hd)]
  case rld =>
    intro s s1 i bs hturn hb hd
    rw [step_unit s s1 .rld hturn, unitStep_rld s1 hb, rldStep_runs s1 i (rldFetch_of_decode hd)]
  case lzd =>
    intro s s1 l hturn hb hroom hfill
    rw [step_unit s s1 .lzd hturn, unitStep_lzd s1 hb, lzdStep_runs s1 l hroom hfill]
  case mode =>
    intro s s1 hturn hb hp hi hm
    obtain ⟨t, he, ht⟩ := exec_mode_pend s1 hm
    rw [step_unit s s1 .g4e hturn, unitStep_g4e s1 hb, g4eStep_mode s1 hp hi, runMode_of_no_runs he (ht.trans hp)]
  case horizontal =>
    intro s s1 t hturn hb hp hi hm he hbt
    rw [step_unit s s1 .g4e hturn, unitStep_g4e s1 hb, g4eStep_mode s1 hp hi, hm, runMode_next s1 t .g4H he,
      if_pos ((busy_iff _).mpr hbt)]
  case endOfBlock =>
    intro s s1 hturn hb hp hi hrow
    rw [step_unit s s1 .g4e hturn, unitStep_g4e s1 hb, g4eStep_endOfBlock s1 hp hi hrow]
  case runWord =>
    intro s s1 w i t hturn hb hp hi he
    rw [step_unit s s1 .g4e hturn, unitStep_g4e s1 hb, g4eStep_pending s1 (by simp [hp]), hp, drain_single hi he]
  case host =>
    intro s s1 u v i q hturn hq hd
    rw [step_host s s1 hturn, hostStep_cons s1 _ q hq, hostAct_command _ hd]

end Sys2Proof.Proofs
end

section
/-! PROOFS. The elements of LZD, its ends and START (41_lzw.md R182, R185 to R200). -/

namespace Sys2Proof.Proofs

open Sys2Proof.Machine Sys2Proof.Laws

/-! ### The cleared table, START and the control codes (R182, R188, R189, R195) -/

section
variable {l : Lzd}

theorem clearTable_codeSize_toNat (h : l.depth ≤ 8) : l.clearTable.codeSize.toNat = l.depth + 1 := by
  rw [clearTable_codeSize, BitVec.toNat_ofNat]
  omega

theorem clearTable_avail_toNat (h : l.depth ≤ 8) : l.clearTable.avail.toNat = 2 ^ l.depth + 2 := by
  have hpow : 2 ^ l.depth ≤ 2 ^ 8 := Nat.pow_le_pow_right (by decide) h
  have hfree : l.cx.firstFree = 2 ^ l.depth + 2 := rfl
  rw [clearTable_avail, BitVec.toNat_ofNat]
  omega

end

theorem exec_startLzd (s : State) : exec (.cmdStart .lzd) s = .next { s with lzd := s.lzd.start s.cfg } := rfl

section
variable {cfg : Config} {l : Lzd}

theorem lzdStart_ignored (h : l.sh.state ≠ .idle) : l.start cfg = l := if_neg h

/-- What START clears first does not touch the configuration. -/
theorem lzdLegal_startClear : Lzd.legal cfg { l with sh := l.sh.startClear } = l.legal cfg := rfl

theorem lzdStart_illegal (hi : l.sh.state = .idle) (hl : ¬l.legal cfg = true) :
    l.start cfg = { l with sh := l.sh.startClear.raise .cfg 0 } := by
  rw [Lzd.start, if_pos hi]
  exact if_neg (lzdLegal_startClear ▸ hl)

theorem lzdStart_legal (hi : l.sh.state = .idle) (hl : l.legal cfg = true) :
    l.start cfg = Lzd.init { l with sh := l.sh.startClear } := by
  rw [Lzd.start, if_pos hi]
  exact if_pos (lzdLegal_startClear ▸ hl)

end

/-- Settles O46: START's three cases; the initial sizes are those of a cleared table. -/
theorem startLzd : Obligations.StartLzd := by
  unfold Obligations.StartLzd
  intro s
  have hlegal := lzdLegal_iff s.cfg s.lzd
  refine ⟨fun hb => ?ignored, fun hi hl => ?illegal, fun hi hl => ?legal⟩
  case ignored => rw [exec_startLzd, lzdStart_ignored hb]
  case illegal =>
    rw [exec_startLzd, lzdStart_illegal hi fun h => hl ?_]
    · rfl
    · obtain ⟨hdepth, hin, hout⟩ := hlegal.mp h
      exact ⟨hin, hout, hdepth⟩
  case legal =>
    obtain ⟨hin, hout, hdepth⟩ := hl
    have hd8 : s.lzd.depth ≤ 8 := by omega
    rw [exec_startLzd, lzdStart_legal hi (hlegal.mpr ⟨hdepth, hin, hout⟩)]
    exact ⟨_, rfl, rfl, clearTable_codeSize_toNat hd8, clearTable_avail_toNat hd8⟩

/-- Settles O23: each of the three elements is one update of the unit. -/
theorem lzwControlCodes : Obligations.LzwControlCodes := by
  unfold Obligations.LzwControlCodes
  intro s c
  have hclear : exec .lzwClear s = .next { s with lzd := s.lzd.clearTable } := rfl
  have heoi : exec .lzwEoi s = .next { s with lzd := s.lzd.finish false } := rfl
  exact ⟨⟨_, hclear, rfl, fun hd8 => ⟨clearTable_codeSize_toNat hd8, clearTable_avail_toNat hd8⟩⟩, heoi, rfl⟩

/-! ### The ends of a run (R185, R186, R200) -/

/-- With the cursor at the end of the input no byte is left over: the flags are `SHORT` and, `OUT` not being full, `UNDER`. -/
theorem finish_exhausted {l : Lzd} (hout : l.sh.outLen.toNat < l.outMax) (d : Word) (n : BitVec 6) :
    Lzd.finish true { l with datum := d, nbits := n, sh := { l.sh with inPos := l.sh.inLen } } =
      { l with datum := d, nbits := n, sh := { l.sh with inPos := l.sh.inLen }.Completed false true true } := by
  have hflags : Shell.lzdFlags { l.sh with inPos := l.sh.inLen } true = ⟨false, true, true⟩ := by
    simpa [Shell.lzdFlags, Shell.leftOver, Lzd.outMax] using hout
  rw [Lzd.finish, hflags]
  rfl

/-- Settles O22: the output limit is looked at before the fetch; a fetch that finds too few bits stops at `IN_LEN`. -/
theorem lzdEnds : Obligations.LzdEnds := by
  unfold Obligations.LzdEnds
  intro s hb
  rw [unitStep_lzd s hb]
  refine ⟨fun hfull => lzdStep_full s hfull, fun hout hr _ hcursor hshort => ?_⟩
  obtain ⟨-, -, -, h12, -, -⟩ := (cxOk_iff s.lzd).mp hr.ranges
  have hbuf := running_buffered hr hcursor
  have hf : (s.lzd.fill 2).2 = false := Bool.eq_false_iff.mpr fun h =>
    absurd ((fill_true_iff hbuf h12 hr.buffered).mp h) (Nat.not_le.mpr hshort)
  have hend := fill_exhausted hbuf h12 hr.buffered hf
  exact ⟨_, lzdStep_exhausted s _ hout (Prod.ext hend hf),
    congrArg (fun l => { s with lzd := l }) (finish_exhausted hout _ _)⟩

/-! ### Strings (R196) -/

section
variable {l : Lzd}

/-- The codes of the table form a tree: each entry continues an earlier code that has a string (R196). -/
def Chained (l : Lzd) : Prop :=
  ∀ k, l.cx.firstFree ≤ k → k < l.cx.avail → (l.prefixAt k).toNat < k ∧ l.codeOk (l.prefixAt k).toNat

/-- An entry has the string of the code it continues, and its suffix (R196). -/
theorem expand_entry (hchain : Chained l) (hsize : l.cx.avail ≤ 4096) {k : Nat} (hfree : l.cx.firstFree ≤ k)
    (hk : k < l.cx.avail) :
    ∃ str, l.expand (l.prefixAt k).toNat = some str ∧ l.expand k = some (str ++ [l.suffixAt k]) := by
  obtain ⟨hlt, hok⟩ := hchain k hfree hk
  have hnotLit : ¬k < l.cx.clear := by
    have : l.cx.clear < l.cx.firstFree := Nat.lt_add_of_pos_right (by decide)
    omega
  obtain ⟨str, hstr⟩ := expandIn_defined hchain 4095 _ (by omega) hok
  refine ⟨str, expandIn_mono l _ _ _ _ hstr (by decide), ?_⟩
  rw [Lzd.expand, show 4096 = 4095 + 1 from rfl, Lzd.expandIn, if_neg hnotLit, if_pos ⟨hfree, hk⟩, hstr]
  rfl

/-- A string is at most one byte longer than its code's place among the entries, counted from 1; a literal's place is 0 (R196). -/
theorem expandIn_length (hchain : Chained l) : ∀ (n k : Nat) (str : List Byte), l.expandIn n k = some str →
    str.length ≤ k + 1 - l.cx.firstFree + 1 := by
  intro n
  induction n with
  | zero => intro k str h; simp [Lzd.expandIn] at h
  | succ n ih =>
    intro k str h
    rw [Lzd.expandIn] at h
    split_ifs at h with hlit hentry
    · rw [← Option.some.inj h, List.length_singleton]
      exact Nat.le_add_left 1 _
    · obtain ⟨p, hp, rfl⟩ := Option.map_eq_some_iff.mp h
      obtain ⟨hlt, -⟩ := hchain k hentry.1 hentry.2
      have hlen := ih _ p hp
      rw [List.length_append, List.length_singleton]
      omega

end

/-- Settles O27: one turn of `expand`, and the length by induction along the chain. -/
theorem stringsFollowTheChain : Obligations.StringsFollowTheChain := by
  unfold Obligations.StringsFollowTheChain
  intro cfg l k h
  refine ⟨expand_literal, fun hfree hk => ?_⟩
  obtain ⟨-, -, -, -, -, hsize⟩ := (cxOk_iff l).mp h.ranges
  obtain ⟨hlt, hok⟩ := h.chain k hfree hk
  obtain ⟨str, hprefix, hstr⟩ := expand_entry h.chain hsize hfree hk
  have hlen : str.length ≤ (l.prefixAt k).toNat + 1 - (2 ^ l.depth + 2) + 1 := expandIn_length h.chain _ _ _ hprefix
  have hcode : (l.prefixAt k).toNat < 2 ^ l.depth ∨ 2 ^ l.depth + 2 ≤ (l.prefixAt k).toNat := hok.imp_right And.left
  exact ⟨hlt, by omega, by omega, str, hprefix, hstr, by omega⟩

/-! ### What an element appends and adds (R193, R194, R197) -/

section
variable {cfg : Config} {l : Lzd}

/-- An append in a run: only `OUT` and `OUT_LEN` change, as R197 says. -/
theorem append_appended (h : l.Running cfg) (str : List Byte) :
    ∃ n b, l.append cfg str = .ok { l with sh := { l.sh with outLen := n, outBuf := b } } ∧
      l.Appended { l with sh := { l.sh with outLen := n, outBuf := b } } str := by
  obtain ⟨-, -, hmax⟩ := (lzdLegal_iff cfg l).mp h.legal
  have hout := h.output
  refine ⟨_, _, (append_eq_ok cfg str l _).mpr ⟨by omega, rfl⟩, by rw [Nat.min_comm], fun a => ?_⟩
  refine (outByte_store .lzd l.sh l.sh.outLen.toNat (str.take (l.outMax - l.sh.outLen.toNat)) a).trans ?_
  rw [List.length_take, Nat.min_comm]
  split_ifs with hin
  · rw [List.getD_eq_getElem?_getD, List.getD_eq_getElem?_getD, List.getElem?_take_of_lt (by omega)]
  · rfl

/-- The entry added is the one R193 and R194 say. -/
theorem added_addEntry (o : BitVec 12) (f : Byte) (l : Lzd) : l.Added (l.addEntry o f) o f := by
  refine ⟨addEntry_prefixAt o f l, addEntry_suffixAt o f l, fun hfull => ?_, fun hroom => ?_⟩
  · rw [addEntry_full o f l hfull]
    exact ⟨rfl, rfl⟩
  · exact ⟨addEntry_avail o f l hroom, addEntry_codeSize o f l hroom⟩

/-- What `LZW.REF` and `LZW.KWK` do with a string in a run (R191, R192): the string is appended, the entry of the previous code
and the string's first byte added, and the strings are those of the table so grown. -/
theorem emit_effect (h : l.Running cfg) (c : BitVec 12) (f : Byte) (str : List Byte) :
    ∃ m, l.emit cfg c (f :: str) = .ok m ∧
      m = { l with
        first := f
        old := c
        avail := m.avail
        codeSize := m.codeSize
        prefixTab := m.prefixTab
        suffixTab := m.suffixTab
        sh := m.sh } ∧
      l.Appended m (f :: str) ∧ l.Added m l.old f ∧ ∀ k, m.expand k = (l.addEntry l.old f).expand k := by
  obtain ⟨n, b, happend, happended⟩ := append_appended h (f :: str)
  have hadded := added_addEntry l.old f l
  refine ⟨_, (emit_eq_ok cfg c f str l _).mpr ⟨_, happend, rfl⟩, ?_⟩
  rw [entered_eq, entered, addEntry_out]
  rw [addEntry_frame] at hadded ⊢
  refine ⟨rfl, happended, hadded, expand_congr ?_ ?_ ?_ ?_⟩ <;> intros <;> rfl

/-- The entry added for the previous code has that one's string and the byte (R192, R193, R196). -/
theorem expand_newEntry (h : l.Running cfg) (hv : l.oldValid = true) (ha : l.avail.toNat < 4096) {str : List Byte}
    (hstr : l.expand l.old.toNat = some str) (f : Byte) :
    (l.addEntry l.old f).expand l.avail.toNat = some (str ++ [f]) := by
  have havail : (l.addEntry l.old f).cx.avail = l.avail.toNat + 1 := addEntry_avail l.old f l ha
  obtain ⟨-, -, -, -, hfree, -⟩ := (cxOk_iff l).mp h.ranges
  obtain ⟨p, hp, hnew⟩ := expand_entry (chain_addEntry h hv f) (by omega)
    ((addEntry_cx l.old f l).2 ▸ hfree) (by omega : l.avail.toNat < _)
  rw [addEntry_prefixAt, if_pos ⟨rfl, ha⟩] at hp
  rw [addEntry_suffixAt, if_pos ⟨rfl, ha⟩] at hnew
  obtain rfl := Option.some.inj (hp.symm.trans (expandIn_addEntry _ _ _ hstr))
  exact hnew

end

/-! ### The codes that have a string (R190 to R192) -/

theorem exec_lzwLit {s : State} {c : BitVec 12} {m : Lzd} (h : s.lzd.lit s.cfg c = .ok m) :
    exec (.lzwLit c) s = .next { s with lzd := m } := congrArg (settle · fun l => { s with lzd := l }) h

theorem exec_lzwRef {s : State} {c : BitVec 12} {m : Lzd} (h : s.lzd.ref s.cfg c = .ok m) :
    exec (.lzwRef c) s = .next { s with lzd := m } := congrArg (settle · fun l => { s with lzd := l }) h

theorem exec_lzwKwk {s : State} {m : Lzd} (h : s.lzd.kwk s.cfg = .ok m) :
    exec .lzwKwk s = .next { s with lzd := m } := congrArg (settle · fun l => { s with lzd := l }) h

/-- Settles O24: the append is the only thing a literal does besides setting `FIRST`, `OLD` and `OLD_VALID`. -/
theorem lzwLit : Obligations.LzwLit := by
  unfold Obligations.LzwLit
  intro s c h _ _
  obtain ⟨n, b, happend, happended⟩ := append_appended h [c.setWidth 8]
  have hlit : s.lzd.lit s.cfg c = .ok { s.lzd with
      first := c.setWidth 8
      old := c
      oldValid := true
      sh := { s.lzd.sh with outLen := n, outBuf := b } } := by rw [Lzd.lit, happend]
  rw [BitVec.ofNat_toNat]
  exact ⟨_, exec_lzwLit hlit, rfl, happended⟩

/-- Settles O25: a code of the table has a string, which is emitted. -/
theorem lzwRef : Obligations.LzwRef := by
  unfold Obligations.LzwRef
  intro s c h _ _ hc
  obtain ⟨f, str, hstr⟩ := expand_defined h c hc
  obtain ⟨m, hemit, hframe, happended, hadded, -⟩ := emit_effect h c f str
  have href : s.lzd.ref s.cfg c = .ok m := by rw [Lzd.ref, hstr]; exact hemit
  exact ⟨f, str, _, hstr, exec_lzwRef href, congrArg (fun l => { s with lzd := l }) hframe, happended, hadded⟩

/-- Settles O26: the string emitted is the previous one and `FIRST`, that one's first byte, so the entry added has the same
string. -/
theorem lzwKwk : Obligations.LzwKwk := by
  unfold Obligations.LzwKwk
  intro s h _ hv ha
  obtain ⟨f, str, hstr⟩ := expand_defined h s.lzd.old (h.old hv)
  obtain rfl : f = s.lzd.first := Option.some.inj (h.head hv _ hstr)
  obtain ⟨m, hemit, hframe, happended, hadded, hexpand⟩ :=
    emit_effect h (BitVec.ofNat 12 s.lzd.avail.toNat) s.lzd.first (str ++ [s.lzd.first])
  have hkwk : s.lzd.kwk s.cfg = .ok m := by rw [Lzd.kwk, hstr]; exact hemit
  have hnew := (hexpand _).trans (expand_newEntry h hv ha hstr s.lzd.first)
  exact ⟨_, str, _, hstr, rfl, exec_lzwKwk hkwk, congrArg (fun l => { s with lzd := l }) hframe, happended, hadded, hnew⟩

end Sys2Proof.Proofs
end

section
/-! PROOFS. What G4E's packer sends for a word, the run words, the code tables and the choice of the mode (42_g4_encoder.md
R230, R232, R234, R235, R240 to R243). -/

namespace Sys2Proof.Proofs

open Sys2Proof.Machine Sys2Proof.Laws

/-! ### Words sent (R235, R239) -/

/-- Settles O28: `putbits` has the two answers of `PackSpec`. -/
theorem putbitsAppends : Obligations.PutbitsAppends := by
  unfold Obligations.PutbitsAppends
  intro cfg g c hp hc hwf hout
  have hspec := putbits_spec hwf hp hout hc
  rw [← bits_length c]
  refine ⟨fun hroom => ?fits, fun hroom => ?overflows⟩
  case fits =>
    obtain ⟨g', hg', h⟩ := packSpec_ok hspec hroom
    have hframe := h.frame
    exact ⟨g', hg', by rw [hframe], packed_of_appends h⟩
  case overflows =>
    obtain ⟨g', hg', h⟩ := packSpec_error hspec hroom
    exact ⟨g', hg', h.frame, h.overflowed⟩

/-- Settles O29: the element of a run word packs the word of its colour's table at its index. -/
theorem runWordsSendTheirCode : Obligations.RunWordsSendTheirCode := by
  unfold Obligations.RunWordsSendTheirCode
  intro s w i hi hwf hp hout
  obtain ⟨c, hcode, hc⟩ := runCode_isSome s.cfg w hwf
  obtain ⟨fits, overflows⟩ := putbitsAppends s.cfg s.g4e c hp hc hwf hout
  obtain ⟨j, hj, hexec⟩ := exec_runWord w
  obtain rfl : i = j := Option.some.inj (hi.symm.trans hj)
  have hrun : exec i s = .next { s with g4e := packed (s.g4e.putbits s.cfg c) } := (hexec s).trans (emitRun_eq w s c hcode)
  have hentry : (match w.colour with | .white => s.cfg.whiteTab | .black => s.cfg.blackTab)[w.index.val]? = some c := by
    unfold runCode at hcode
    cases hcol : w.colour <;> rw [hcol] at hcode <;> exact hcode
  refine ⟨c, hentry, fun hroom => ?fits, fun hroom => ?overflows⟩
  case fits =>
    obtain ⟨g', hg', h⟩ := fits hroom
    exact ⟨g', by rw [hrun, hg', packed_ok], h⟩
  case overflows =>
    obtain ⟨g', hg', h⟩ := overflows hroom
    exact ⟨g', by rw [hrun, hg', packed_error], h⟩

/-! ### The code tables (R240 to R243) -/

/-- The code table of a colour. -/
def colourTable : Colour → G4Table
  | .white => .white
  | .black => .black

/-- The elements of a colour stand in its table in index order. -/
theorem g4Index_runInstrs (c : Colour) :
    (runInstrs c).map Instr.g4Index = (List.range 104).map fun k => some (colourTable c, k) := by
  cases c <;> rfl

/-- The element of a run word has the run word's index (30_encoding.md R114). -/
theorem g4Index_runWord (w : RunWord) :
    ∃ i, w.instr = some i ∧ i.g4Index = some (colourTable w.colour, w.index.val) := by
  have hmap := congrArg (fun xs => xs[w.index.val]?) (g4Index_runInstrs w.colour)
  simp only [List.getElem?_map] at hmap
  rw [← runWord_instr, List.getElem?_range w.index.isLt] at hmap
  exact Option.map_eq_some_iff.mp hmap

/-- Each element stands at one index of one table, so no two of the 208 are the same. -/
theorem runInstrs_nodup : (whiteInstrs ++ blackInstrs).Nodup := by
  have hindex : ((whiteInstrs ++ blackInstrs).map Instr.g4Index).Nodup := by
    have hwhite : whiteInstrs.map Instr.g4Index = _ := g4Index_runInstrs .white
    have hblack : blackInstrs.map Instr.g4Index = _ := g4Index_runInstrs .black
    rw [List.map_append, hwhite, hblack, List.nodup_append]
    refine ⟨List.nodup_range.map fun a b h => by simpa using h, List.nodup_range.map fun a b h => by simpa using h, ?_⟩
    simp [colourTable]
  exact hindex.of_map

/-- The element of each colour's list is a run word's. -/
theorem runWord_of_mem {c : Colour} {i : Instr} (h : i ∈ runInstrs c) : ∃ w : RunWord, w.instr = some i := by
  have hlen : (runInstrs c).length = 104 := by simpa using congrArg List.length (g4Index_runInstrs c)
  obtain ⟨k, hk, hget⟩ := List.getElem_of_mem h
  exact ⟨⟨c, ⟨k, hlen ▸ hk⟩⟩, by rw [runWord_instr]; exact List.getElem?_eq_some_iff.mpr ⟨hk, hget⟩⟩

theorem printedWhiteTab_earlyOne : printedWhiteTab.all (fun w => (w.bits.take 8).contains true) = true := rfl

theorem printedBlackTab_earlyOne : printedBlackTab.all (fun w => (w.bits.take 8).contains true) = true := rfl

/-- Settles O6: the printed words by evaluation, the run words' elements by their index. -/
theorem codeTableInvariants : Obligations.CodeTableInvariants := by
  unfold Obligations.CodeTableInvariants
  refine ⟨printedCodes_prefixFree .white, printedCodes_prefixFree .black, by decide, ?one, by decide, by decide, by decide,
    by decide, rfl, runInstrs_nodup, ?words, ?index⟩
  case one =>
    simp only [List.forall_mem_append]
    exact ⟨⟨List.all_eq_true.mp printedWhiteTab_earlyOne, List.all_eq_true.mp printedBlackTab_earlyOne⟩, by decide⟩
  case words =>
    intro i hi
    rcases List.mem_append.mp hi with hwhite | hblack
    · exact runWord_of_mem (c := .white) hwhite
    · exact runWord_of_mem (c := .black) hblack
  case index =>
    intro w
    obtain ⟨i, hi, hindex⟩ := g4Index_runWord w
    refine ⟨i, hi, hindex.trans ?_⟩
    cases w.colour <;> rfl

/-! ### The choice of the mode (R230, R232) -/

theorem verticalOf_near {d : Int} (h : |d| ≤ 3) :
    [Instr.g4Vr3, .g4Vr2, .g4Vr1, .g4V0, .g4Vl1, .g4Vl2, .g4Vl3][(d + 3).toNat]? = some ((verticalOf d).getD .g4H) := by
  obtain ⟨hlow, hhigh⟩ := abs_le.mp h
  interval_cases d <;> rfl

theorem verticalOf_far {d : Int} (h : 3 < |d|) : verticalOf d = none := by
  have hne : ∀ k : Int, |k| ≤ 3 → d ≠ k := fun k hk he => absurd (he ▸ h) (not_lt.mpr hk)
  unfold verticalOf
  simp [hne]

/-- Settles O30: the two tests of `G4e.mode` in their order. -/
theorem modeChoice : Obligations.ModeChoice := by
  unfold Obligations.ModeChoice
  intro g b2 d
  have hlater (h : g.a1.toNat ≤ b2) : g.mode = (verticalOf d).getD .g4H := if_neg (Nat.not_lt.mpr h)
  refine ⟨fun h => if_pos h, fun h hd => ?vertical, fun h hd => ?horizontal⟩
  case vertical => rw [verticalOf_near hd, hlater h]
  case horizontal => rw [hlater h, verticalOf_far hd, Option.getD_none]

end Sys2Proof.Proofs
end

section
/-! PROOFS. The elements of a mode step, and the whole horizontal step with its run words (42_g4_encoder.md R227 to R234,
R236, R239). -/

namespace Sys2Proof.Proofs

open Sys2Proof.Machine Sys2Proof.Laws

/-! ### Positions in a row -/

theorem finddiff_le {pix : Nat → Bool} {bs be : Nat} {k : Bool} (h : bs ≤ be) : finddiff pix bs be k ≤ be :=
  (finddiff_bounds pix bs be k h).right

theorem finddiff2_le {pix : Nat → Bool} {bs be : Nat} {k : Bool} : finddiff2 pix bs be k ≤ be := by
  unfold finddiff2
  split
  · next h => exact finddiff_le h.le
  · exact le_rfl

/-- A position of a row, its end included, fits a register. -/
theorem word_column {g : G4e} {n : Nat} (h : n ≤ g.width) : (word n).toNat = n :=
  word_toNat_of_lt (h.trans_lt g.sh.cfg0.isLt)

/-! ### After a mode (R229, R236) -/

section
variable {g : G4e}

/-- The reference line after row end is the coding line, byte by byte (R236). -/
theorem endRow_refCell (g : G4e) (j : Nat) :
    cell .ref g.sh.inGen g.endRow.ref j =
      if j < g.rowBytes then cell .cur g.sh.inGen g.cur j else cell .ref g.sh.inGen g.ref j := by
  have hread := readBlock_getElem? .cur g.sh.inGen g.cur g.rowBytes 0 j
  rw [Nat.zero_add] at hread
  rw [endRow_ref, cell_store, if_pos (Nat.zero_le j), Nat.sub_zero, List.getD_eq_getElem?_getD, hread]
  split <;> rfl

/-- What follows a mode moves the row on from the `A0` the mode has set. -/
theorem afterMode_moved (hrow : g.row.toNat < g.height) (x : Word) : g.Moved (G4e.afterMode { g with a0 := x }) x.toNat := by
  have hnext : (word (g.row.toNat + 1)).toNat = g.row.toNat + 1 :=
    word_toNat_of_lt (by have : g.height < 2 ^ 32 := g.sh.cfg1.isLt; omega)
  rcases Nat.lt_or_ge x.toNat g.width with hlt | hge
  · have hb1 {k : Bool} : finddiff g.refPixel x.toNat g.width k ≤ g.width := finddiff_le hlt.le
    rw [afterMode_advance _ hlt]
    exact ⟨rfl, fun h => absurd hlt (Nat.not_lt.mpr h), fun _ =>
      ⟨rfl, rfl, rfl, word_column (finddiff_le hlt.le), word_column (finddiff_le hb1)⟩⟩
  · rw [afterMode_end _ hge]
    exact ⟨rfl, fun _ => ⟨hnext, rfl, rfl, rfl, endRow_refCell _⟩, fun h => absurd h (Nat.not_lt.mpr hge)⟩

/-- Where the row moves from does not depend on the packer. -/
theorem moved_after {g1 t : G4e} {bs : List Bool} {a0 : Nat} (h : Appends g g1 bs) (hm : g1.Moved t a0) : g.Moved t a0 := by
  rw [h.frame] at hm
  exact hm

/-- What follows a mode leaves the packer and `OUT` as the mode's word left them. -/
theorem appends_afterMode {g1 : G4e} {bs : List Bool} (h : Appends g g1 bs) (x : Word) (ws : List RunWord) :
    g.Packed (G4e.afterMode { g1 with pend := ws, a0 := x }) bs := by
  obtain ⟨⟨hfree, hlow⟩, hsent, hsh, hkept⟩ := packed_of_appends h
  unfold G4e.afterMode
  split <;> exact ⟨⟨hfree, hlow⟩, hsent, hsh, hkept⟩

theorem afterMode_cur (g : G4e) : g.afterMode.cur = g.cur := by
  unfold G4e.afterMode
  split <;> rfl

end

/-! ### Modes (R231 to R233) -/

section
variable {cfg : Config} {g : G4e}

/-- The two ends of a mode: all sent and the row moved on, or `E_OVF`. -/
structure ModeEnds (cfg : Config) (g : G4e) (bs : List Bool) (a0 : Nat) (ws : List RunWord) (t : G4e) : Prop where
  fits : g.Room cfg bs.length → g.Coded t bs a0 ws
  overflows : ¬g.Room cfg bs.length → g.Overflowed cfg t

/-- A mode in a running row: its word, then `A0`, the run words it leaves, and row end or advance. -/
theorem mode_ends (hwf : cfg.wf = true) (hr : g.Running cfg) (hi : g.inrow = true) {c : CodeWord} (hc : c.ok = true)
    {x : Word} {ws : List RunWord} {k : G4e → G4e}
    (hk : ∀ g1, k g1 = G4e.afterMode { g1 with pend := g1.pend ++ ws, a0 := x }) :
    ModeEnds cfg g c.bits x.toNat ws (G4e.thenDo (g.putbits cfg c) k) := by
  have hspec := putbits_spec hwf hr.packer hr.output hc
  refine ⟨fun hroom => ?fits, fun hroom => ?overflows⟩
  case fits =>
    obtain ⟨g1, hg1, h⟩ := packSpec_ok hspec hroom
    have hframe := h.frame
    have hpend : g1.pend = [] := by rw [hframe]; exact hr.nothingPending
    have hrow : g1.row.toNat < g1.height := by rw [hframe]; exact (hr.inRow hi).left
    rw [hg1, thenDo_ok, hk, hpend, List.nil_append]
    have hmoved : g1.Moved (G4e.afterMode { g1 with pend := ws, a0 := x }) x.toNat :=
      afterMode_moved (g := { g1 with pend := ws }) hrow x
    have hcur : (G4e.afterMode { g1 with pend := ws, a0 := x }).cur = g.cur := by rw [afterMode_cur, hframe]
    exact ⟨appends_afterMode h x ws, moved_after h hmoved, hcur, afterMode_keeps_pend _⟩
  case overflows =>
    obtain ⟨g1, hg1, h⟩ := packSpec_error hspec hroom
    rw [hg1, thenDo_error]
    exact h.overflowed

/-- Every mode word is one `putbits` takes. -/
theorem modeWord_ok (hwf : cfg.wf = true) {c : CodeWord} (h : c ∈ cfg.modeTab.modes) : c.ok = true := by
  simp only [Config.wf, Bool.and_eq_true] at hwf
  obtain ⟨⟨⟨⟨⟨-, hmodes⟩, -⟩, -⟩, -⟩, -⟩ := hwf
  exact List.all_eq_true.mp hmodes c h

theorem passMode_ends (hwf : cfg.wf = true) (hr : g.Running cfg) (hi : g.inrow = true) :
    ModeEnds cfg g cfg.modeTab.pass.bits g.b2 [] (g.passMode cfg) := by
  have hb2 : (word g.b2).toNat = g.b2 := word_column finddiff2_le
  rw [← hb2]
  exact mode_ends hwf hr hi (modeWord_ok hwf (by simp [ModeTab.modes])) fun g1 => by rw [List.append_nil]

theorem vertical_ends (hwf : cfg.wf = true) (hr : g.Running cfg) (hi : g.inrow = true) {c : CodeWord}
    (hc : c ∈ cfg.modeTab.modes) : ModeEnds cfg g c.bits g.a1.toNat [] (g.vertical cfg c) :=
  mode_ends hwf hr hi (modeWord_ok hwf hc) fun g1 => by rw [List.append_nil]

theorem horizontal_ends (hwf : cfg.wf = true) (hr : g.Running cfg) (hi : g.inrow = true) :
    ModeEnds cfg g cfg.modeTab.horiz.bits g.a2 g.modeRuns (g.horizontal cfg) := by
  have ha2 : (word g.a2).toNat = g.a2 := word_column finddiff2_le
  rw [← ha2]
  exact mode_ends hwf hr hi (modeWord_ok hwf (by simp [ModeTab.modes])) fun _ => rfl

/-- The run words a horizontal mode leaves are those of R233. -/
theorem modeRuns_are (g : G4e) : g.RunsAre g.modeRuns := by
  unfold G4e.RunsAre G4e.modeRuns G4e.firstColour
  dsimp only
  split <;> rfl

end

/-- Settles O31: the pass word, with `A0` set to `b2`. -/
theorem passMode : Obligations.PassMode := by
  unfold Obligations.PassMode
  intro s hr hwf hi
  obtain ⟨hfits, hover⟩ := passMode_ends hwf hr hi
  rw [bits_length] at hfits hover
  exact ⟨_, rfl, hfits, hover⟩

/-- The vertical elements, each with its own word of the mode table (R232). -/
theorem exec_vertical (s : State) {i : Instr} {c : CodeWord}
    (h : (i, c) ∈ [(Instr.g4Vr3, s.cfg.modeTab.vr3), (.g4Vr2, s.cfg.modeTab.vr2), (.g4Vr1, s.cfg.modeTab.vr1),
      (.g4V0, s.cfg.modeTab.v0), (.g4Vl1, s.cfg.modeTab.vl1), (.g4Vl2, s.cfg.modeTab.vl2), (.g4Vl3, s.cfg.modeTab.vl3)]) :
    c ∈ s.cfg.modeTab.modes ∧ exec i s = .next { s with g4e := s.g4e.vertical s.cfg c } := by
  simp only [List.mem_cons, Prod.mk.injEq, List.not_mem_nil, or_false] at h
  rcases h with ⟨rfl, rfl⟩ | ⟨rfl, rfl⟩ | ⟨rfl, rfl⟩ | ⟨rfl, rfl⟩ | ⟨rfl, rfl⟩ | ⟨rfl, rfl⟩ | ⟨rfl, rfl⟩ <;>
    exact ⟨by simp [ModeTab.modes], rfl⟩

/-- Settles O32: one argument for the seven words, with `A0` set to `A1`. -/
theorem verticalModes : Obligations.VerticalModes := by
  unfold Obligations.VerticalModes
  intro s i c hr hwf hi t hmem
  obtain ⟨hc, he⟩ := exec_vertical s hmem
  obtain ⟨hfits, hover⟩ := vertical_ends hwf hr hi hc
  rw [bits_length] at hfits hover
  exact ⟨_, he, hfits, hover⟩

/-- Settles O33: the mode's word, with `A0` set to `a2` and the run words left to pack. -/
theorem horizontalMode : Obligations.HorizontalMode := by
  unfold Obligations.HorizontalMode
  intro s hr hwf hi
  obtain ⟨hfits, hover⟩ := horizontal_ends hwf hr hi
  rw [bits_length] at hfits hover
  exact ⟨_, s.g4e.modeRuns, rfl, modeRuns_are s.g4e, hfits, hover⟩

/-! ### Bits sent after bits sent (R235) -/

section
variable {cfg : Config} {g g1 t : G4e} {bs cs : List Bool}

theorem packed_length (h : g.Packed g1 bs) :
    8 * g1.sh.outLen.toNat + (8 - g1.free.toNat) = 8 * g.sh.outLen.toNat + (8 - g.free.toNat) + bs.length := by
  obtain ⟨-, hsent, -, -⟩ := h
  rw [← sent_length, ← sent_length, hsent, List.length_append]

theorem packed_outLen (h : g.Packed g1 bs) :
    g1.sh.outLen.toNat = g.sh.outLen.toNat + (8 - g.free.toNat + bs.length) / 8 := by
  have hlen := packed_length h
  obtain ⟨⟨⟨h1, h8⟩, -⟩, -, -, -⟩ := h
  omega

theorem room_after_packed (h : g.Packed g1 bs) (cs : List Bool) : g1.Room cfg cs.length ↔ g.Room cfg (bs ++ cs).length := by
  have hlen := packed_length h
  unfold G4e.Room
  rw [List.length_append]
  omega

theorem packed_trans (h1 : g.Packed g1 bs) (h2 : g1.Packed t cs) : g.Packed t (bs ++ cs) := by
  have hn1 := packed_outLen h1
  have hn2 := packed_outLen h2
  have hlen := packed_length h1
  obtain ⟨-, hsent1, hsh1, hkept1⟩ := h1
  obtain ⟨hp, hsent2, hsh2, hkept2⟩ := h2
  have hout : t.sh.outLen = word (g.sh.outLen.toNat + (8 - g.free.toNat + (bs ++ cs).length) / 8) := by
    have hsum : t.sh.outLen.toNat = g.sh.outLen.toNat + (8 - g.free.toNat + (bs ++ cs).length) / 8 := by
      rw [List.length_append]
      omega
    rw [← hsum, word_of_toNat]
  refine ⟨hp, by rw [hsent2, hsent1, List.append_assoc], ?_, fun a ha => ?_⟩
  · rw [← hout, hsh2, hsh1]
  · rw [hkept2 a (by omega), hkept1 a (by omega)]

/-- An overflow after bits sent is one of the whole. -/
theorem overflowed_after (h : g.Packed g1 bs) (ho : g1.Overflowed cfg t) : g.Overflowed cfg t := by
  obtain ⟨-, -, hsh, -⟩ := h
  unfold G4e.Overflowed at ho ⊢
  rw [hsh] at ho
  exact ho

end

/-! ### The run words packed (R234) -/

section
variable {cfg : Config} {g g1 : G4e} {bs : List Bool}

/-- The packer does not look at the run words still to pack. -/
theorem appends_pend (h : Appends g g1 bs) (ws : List RunWord) :
    Appends { g with pend := ws } { g1 with pend := ws } bs where
  frame := by rw [h.frame]
  packer := ⟨h.packer.free, h.packer.low⟩
  sent := h.sent
  kept := h.kept

/-- What packing run words comes to: all sent with none left, or `E_OVF`. -/
structure DrainEnds (cfg : Config) (g : G4e) (bs : List Bool) (t : G4e) : Prop where
  fits : g.Room cfg bs.length → Appends { g with pend := [] } t bs
  overflows : ¬g.Room cfg bs.length → g.Overflowed cfg t

/-- More bits than overflow overflow too. -/
theorem not_room_append (h : ¬g.Room cfg bs.length) (cs : List Bool) : ¬g.Room cfg (bs ++ cs).length := by
  unfold G4e.Room at h ⊢
  rw [List.length_append]
  omega

/-- What has room with more behind it has room. -/
theorem room_of_append {cs : List Bool} (h : g.Room cfg (bs ++ cs).length) : g.Room cfg bs.length :=
  by_contra fun hno => not_room_append hno cs h

/-- The run words packed after a word already sent. -/
theorem drainEnds_after {cs : List Bool} {t : G4e} (h : Appends g g1 bs) (hd : DrainEnds cfg g1 cs t) :
    DrainEnds cfg g (bs ++ cs) t := by
  have hp := packed_of_appends h
  have hiff := room_after_packed (cfg := cfg) hp cs
  exact ⟨fun hroom => appends_trans (appends_pend h []) (hd.fits (hiff.mpr hroom)),
    fun hroom => overflowed_after hp (hd.overflows (mt hiff.mp hroom))⟩

/-- The bits of the first run word stand first. -/
theorem runBits_cons {w : RunWord} {c : CodeWord} (h : runCode cfg w = some c) (ws : List RunWord) :
    runBits cfg (w :: ws) = c.bits ++ runBits cfg ws := by
  rw [runBits, List.flatMap_cons, h]
  rfl

/-- A BUSY unit with a sound packer sends the run words in order until one does not fit (R234, R239). -/
theorem drain_ends {s : State} (hwf : s.cfg.wf = true) : ∀ (ws : List RunWord) {g : G4e}, g.PackerOk →
    g.sh.outLen.toNat ≤ s.cfg.maxOut → g.sh.state = .busy → g.pend = ws →
    ∃ t, drain ws { s with g4e := g } = .next { s with g4e := t } ∧ DrainEnds s.cfg g (runBits s.cfg ws) t := by
  intro ws
  induction ws with
  | nil =>
    intro g hp hout hb hpend
    have hnone : { g with pend := [] } = g := by rw [← hpend]
    obtain ⟨⟨h1, h8⟩, -⟩ := id hp
    have hroom : g.Room s.cfg (runBits s.cfg []).length := by
      unfold G4e.Room
      simp only [runBits, List.flatMap_nil, List.length_nil]
      omega
    exact ⟨g, rfl, fun _ => hnone.symm ▸ appends_refl hp, fun hno => absurd hroom hno⟩
  | cons w ws ih =>
    intro g hp hout hb _
    obtain ⟨i, hi, hexec⟩ := exec_runWord w
    obtain ⟨c, hcode, hc⟩ := runCode_isSome s.cfg w hwf
    have hemit := (hexec { s with g4e := { g with pend := ws } }).trans (emitRun_eq w _ c hcode)
    have hspec := putbits_spec (g := { g with pend := ws }) hwf ⟨hp.free, hp.low⟩ hout hc
    rw [drain_cons { s with g4e := g } w ws i _ hi hemit, runBits_cons hcode]
    dsimp only
    generalize G4e.putbits s.cfg c { g with pend := ws } = r at hspec ⊢
    cases hspec with
    | overflows g1 hroom ho =>
      have hfault : g1.sh.state = .fault := congrArg Shell.state ho.overflowed
      rw [packed_error, if_neg (by simp [Shell.busy, hfault])]
      exact ⟨g1, rfl, fun hr => absurd (room_of_append hr) hroom, fun _ => ho.overflowed⟩
    | fits g1 hroom h =>
      have hb1 : g1.sh.state = .busy := by rw [h.frame]; exact hb
      have hpend1 : g1.pend = ws := by rw [h.frame]
      rw [packed_ok, if_pos ((busy_iff _).mpr hb1)]
      obtain ⟨t, ht, hd⟩ := ih h.packer (outLen_le_of_room h hroom) hb1 hpend1
      have hall := drainEnds_after h hd
      exact ⟨t, ht, hall.fits, hall.overflows⟩

end

/-! ### The whole horizontal step (R233, R234, R239) -/

section
variable {cfg : Config} {g g1 t : G4e} {bs cs : List Bool} {a0 : Nat} {ws : List RunWord}

/-- The run words sent after a mode's word complete what the mode left due. -/
theorem coded_drained (hm : g.Coded g1 bs a0 ws) (hd : Appends { g1 with pend := [] } t cs) :
    g.Coded t (bs ++ cs) a0 [] := by
  obtain ⟨hpacked, hmoved, hcur, -⟩ := hm
  have hnext : G4e.Packed { g1 with pend := [] } t cs := packed_of_appends hd
  refine ⟨packed_trans hpacked hnext, ?_, ?_, ?_⟩
  · rw [hd.frame]
    exact hmoved
  · rw [hd.frame]
    exact hcur
  · rw [hd.frame]

end

/-- A mode in a running row with the run words it leaves is one step: all sent, or `E_OVF` (R233). -/
theorem runMode_ends {s : State} (hwf : s.cfg.wf = true) (hb : s.g4e.sh.state = .busy)
    {i : Instr} {g1 : G4e} {bs : List Bool} {a0 : Nat} {ws : List RunWord}
    (he : exec i s = .next { s with g4e := g1 }) (hm : ModeEnds s.cfg s.g4e bs a0 ws g1) :
    ∃ t, runMode i s = .next { s with g4e := t } ∧ ModeEnds s.cfg s.g4e (bs ++ runBits s.cfg ws) a0 [] t := by
  rw [runMode_next s _ i he]
  dsimp only
  by_cases hroom : s.g4e.Room s.cfg bs.length
  · have hcoded := hm.fits hroom
    obtain ⟨hpacked, -, -, hpend⟩ := id hcoded
    obtain ⟨hp, -, hsh, -⟩ := id hpacked
    have hb1 : g1.sh.state = .busy := by rw [hsh]; exact hb
    obtain ⟨t, ht, hd⟩ := drain_ends hwf ws hp ((packed_outLen hpacked).trans_le hroom) hb1 hpend
    have hiff := room_after_packed (cfg := s.cfg) hpacked (runBits s.cfg ws)
    rw [if_pos ((busy_iff _).mpr hb1), hpend]
    exact ⟨t, ht, fun hr => coded_drained hcoded (hd.fits (hiff.mpr hr)),
      fun hr => overflowed_after hpacked (hd.overflows (mt hiff.mp hr))⟩
  · have hover := hm.overflows hroom
    have hfault : g1.sh.state = .fault := congrArg Shell.state hover
    rw [if_neg (by simp [Shell.busy, hfault])]
    exact ⟨g1, rfl, fun hr => absurd (room_of_append hr) hroom, fun _ => hover⟩

/-- A BUSY unit's turn within a row is a mode (R230). -/
theorem unitStep_mode {s : State} (hb : s.g4e.sh.state = .busy) (hp : s.g4e.pend = []) (hi : s.g4e.inrow = true) :
    unitStep .g4e s = runMode s.g4e.mode s := by
  rw [unitStep_g4e s hb, g4eStep_mode s hp hi]

/-- Settles O34: the mode's word, then the run words by `drain_ends`, whose induction does not bound their number. -/
theorem horizontalStep : Obligations.HorizontalStep := by
  unfold Obligations.HorizontalStep
  intro s ws hr hwf hb hi hmode hws
  obtain rfl : ws = s.g4e.modeRuns := hws.trans (modeRuns_are s.g4e).symm
  obtain ⟨t, ht, hends⟩ := runMode_ends (i := .g4H) hwf hb rfl (horizontal_ends hwf hr hi)
  rw [unitStep_mode hb hr.nothingPending hi, hmode]
  exact ⟨t, ht, hends.fits, hends.overflows⟩

end Sys2Proof.Proofs
end

section
/-! PROOFS. G4E's row opening and START (42_g4_encoder.md R221, R222, R226, R238; 44_host_commands.md R292). -/

namespace Sys2Proof.Proofs

open Sys2Proof.Machine Sys2Proof.Laws

/-! ### The row opening (R226, R230, R238) -/

section
variable {cfg : Config} {g : G4e}

/-- The first black pixel of a line, or its end, fits a register. -/
theorem firstBlack_toNat (g : G4e) (pix : Nat → Bool) :
    (word (if pix 0 then 0 else finddiff pix 0 g.width false)).toNat =
      if pix 0 then 0 else finddiff pix 0 g.width false := by
  refine word_column (g := g) ?_
  split
  · exact Nat.zero_le _
  · exact finddiff_le (Nat.zero_le _)

/-- The unit with the next row of `IN` in `CUR`. -/
def loadedRow (g : G4e) : G4e :=
  { g with
    cur := store g.cur 0 (readBlock (.input .g4e) g.sh.inGen g.sh.inBuf g.sh.inPos.toNat g.rowBytes)
    sh := g.sh.advance g.rowBytes
    inrow := true }

theorem loadedRow_curCell (g : G4e) (k : Nat) :
    cell .cur g.sh.inGen (loadedRow g).cur k =
      if k < g.rowBytes then g.sh.inByte .g4e (g.sh.inPos.toNat + k) else cell .cur g.sh.inGen g.cur k := by
  have hread := readBlock_getElem? (.input .g4e) g.sh.inGen g.sh.inBuf g.rowBytes g.sh.inPos.toNat k
  rw [loadedRow, cell_store, if_pos (Nat.zero_le k), Nat.sub_zero, List.getD_eq_getElem?_getD, hread]
  split <;> rfl

theorem openRow_truncated (h : g.sh.inLen.toNat < g.sh.inPos.toNat + g.rowBytes) :
    g.openRow cfg = .ok { g with sh := g.sh.raise .trunc g.sh.inPos } := by
  rw [G4e.openRow, if_pos h]

theorem openRow_loads (hl : g.legal cfg = true) (h : g.sh.inPos.toNat + g.rowBytes ≤ g.sh.inLen.toNat) :
    g.openRow cfg = .ok (loadedRow g).rowStart := by
  rw [G4e.openRow, if_neg (Nat.not_lt.mpr h), if_neg (Nat.not_lt.mpr (rowBytes_le_rowCells hl))]
  rfl

end

/-- A row due is opened in the unit's turn (R230). -/
theorem g4eStep_openRow (s : State) (hp : s.g4e.pend = []) (hi : s.g4e.inrow = false)
    (hrow : s.g4e.row.toNat < s.g4e.height) :
    g4eStep s = settle (s.g4e.openRow s.cfg) fun g => { s with g4e := g } := by
  rw [g4eStep, if_neg (by simp [hp]), if_neg (by simp [hi]), if_neg hrow.ne, if_pos hrow]

/-- Settles O36: the two answers of `openRow`; the second is `loadedRow` at its row start. -/
theorem rowOpen : Obligations.RowOpen := by
  unfold Obligations.RowOpen
  intro s hr hwf hb hi hrow g p
  rw [unitStep_g4e s hb, g4eStep_openRow s hr.nothingPending hi hrow]
  refine ⟨fun hin => ?truncated, fun hin => ?loads⟩
  case truncated =>
    rw [openRow_truncated hin]
    rfl
  case loads =>
    rw [openRow_loads hr.legal hin]
    exact ⟨_, rfl, rfl, loadedRow_curCell g, firstBlack_toNat (loadedRow g) _, firstBlack_toNat (loadedRow g) _⟩

/-! ### START (R221, R222, R292) -/

theorem exec_startG4e (s : State) : exec (.cmdStart .g4e) s = .next { s with g4e := s.g4e.start s.cfg } := rfl

section
variable {cfg : Config} {g : G4e}

theorem g4eStart_ignored (h : g.sh.state ≠ .idle) : g.start cfg = g := if_neg h

/-- What START clears first does not touch the configuration. -/
theorem g4eLegal_startClear : G4e.legal cfg { g with sh := g.sh.startClear } = g.legal cfg := rfl

theorem g4eStart_illegal (hi : g.sh.state = .idle) (hl : ¬g.legal cfg = true) :
    g.start cfg = { g with sh := g.sh.startClear.raise .cfg 0 } := by
  rw [G4e.start, if_pos hi]
  exact if_neg (g4eLegal_startClear ▸ hl)

theorem g4eStart_legal (hi : g.sh.state = .idle) (hl : g.legal cfg = true) :
    g.start cfg = G4e.init { g with sh := g.sh.startClear } := by
  rw [G4e.start, if_pos hi]
  exact if_pos (g4eLegal_startClear ▸ hl)

/-- The reference line of the first row is white (R222). -/
theorem init_refCell (g : G4e) (k : Nat) :
    cell .ref g.sh.inGen g.init.ref k = if k < g.rowBytes then 0 else cell .ref g.sh.inGen g.ref k := by
  change cell .ref g.sh.inGen (store g.ref 0 (List.replicate g.rowBytes 0)) k = _
  rw [cell_store, if_pos (Nat.zero_le k), Nat.sub_zero, List.getD_eq_getElem?_getD, List.getElem?_replicate]
  split <;> rfl

end

/-- Settles O47: START's three cases. -/
theorem startG4e : Obligations.StartG4e := by
  unfold Obligations.StartG4e
  intro s
  have hlegal := g4eLegal_iff s.cfg s.g4e
  refine ⟨fun hb => ?ignored, fun hi hl => ?illegal, fun hi hl => ?legal⟩
  case ignored => rw [exec_startG4e, g4eStart_ignored hb]
  case illegal =>
    rw [exec_startG4e, g4eStart_illegal hi fun h => hl ?_]
    · rfl
    · obtain ⟨hw1, hw, hh, hin, hsize⟩ := hlegal.mp h
      exact ⟨hin, hw1, hw, hh, hsize⟩
  case legal =>
    obtain ⟨hin, hw1, hw, hh, hsize⟩ := hl
    rw [exec_startG4e, g4eStart_legal hi (hlegal.mpr ⟨hw1, hw, hh, hin, hsize⟩)]
    exact ⟨_, rfl, rfl, init_refCell { s.g4e with sh := s.g4e.sh.startClear }⟩

end Sys2Proof.Proofs
end

section
/-! PROOFS. Span finding: what a span is, and that the byte-wise finder over the tables finds the same one (42_g4_encoder.md
R224, R225). -/

namespace Sys2Proof.Proofs

open Sys2Proof.Machine Sys2Proof.Laws

/-! ### Spans (R224) -/

section
variable {pix pix' : Nat → Bool} {k : Bool}

theorem spanFrom_le : ∀ n x, spanFrom pix k x n ≤ n := by
  intro n
  induction n with
  | zero => intro x; exact le_rfl
  | succ n ih =>
    intro x
    have := ih (x + 1)
    rw [spanFrom]
    split <;> omega

/-- Every pixel of a span has its colour. -/
theorem spanFrom_inside : ∀ n x y, x ≤ y → y < x + spanFrom pix k x n → pix y = k := by
  intro n
  induction n with
  | zero => intro x y hxy hy; exact absurd hy (Nat.not_lt.mpr hxy)
  | succ n ih =>
    intro x y hxy hy
    rw [spanFrom] at hy
    split at hy
    · next hx =>
      rcases hxy.eq_or_lt with rfl | hlt
      · exact hx
      · exact ih (x + 1) y hlt (by omega)
    · exact absurd hy (Nat.not_lt.mpr hxy)

/-- The pixel after a span has the other colour. -/
theorem spanFrom_stops : ∀ n x, spanFrom pix k x n < n → pix (x + spanFrom pix k x n) ≠ k := by
  intro n
  induction n with
  | zero => intro x h; exact absurd h (Nat.not_lt_zero _)
  | succ n ih =>
    intro x
    rw [spanFrom]
    split
    · intro h
      have hnext := ih (x + 1) (by omega)
      rwa [Nat.add_assoc] at hnext
    · next hx => exact fun _ => hx

theorem spanFrom_congr : ∀ n x x', (∀ i, i < n → pix (x + i) = pix' (x' + i)) →
    spanFrom pix k x n = spanFrom pix' k x' n := by
  intro n
  induction n with
  | zero => intro x x' _; rfl
  | succ n ih =>
    intro x x' h
    have hrest := ih (x + 1) (x' + 1) fun i hi => by
      have := h (i + 1) (by omega)
      rwa [Nat.add_comm i, ← Nat.add_assoc, ← Nat.add_assoc] at this
    have hfirst : pix x = pix' x' := h 0 (Nat.succ_pos n)
    rw [spanFrom, spanFrom, hfirst, hrest]

/-- A span goes on into the next pixels exactly when it fills the first. -/
theorem spanFrom_add : ∀ m n x, spanFrom pix k x (m + n) =
    if spanFrom pix k x m = m then m + spanFrom pix k (x + m) n else spanFrom pix k x m := by
  intro m n
  induction m with
  | zero => intro x; simp [spanFrom]
  | succ m ih =>
    intro x
    have hnext : x + (m + 1) = x + 1 + m := by omega
    rw [Nat.add_right_comm, spanFrom, spanFrom, ih, hnext]
    by_cases hx : pix x = k
    · rw [if_pos hx, if_pos hx]
      split_ifs <;> omega
    · rw [if_neg hx, if_neg hx, if_neg (Nat.succ_ne_zero m).symm]

/-- A span among fewer pixels is the same one, cut off. -/
theorem spanFrom_min {m n : Nat} (h : m ≤ n) (x : Nat) : spanFrom pix k x m = min m (spanFrom pix k x n) := by
  obtain ⟨d, rfl⟩ := Nat.exists_eq_add_of_le h
  have hle := spanFrom_le (pix := pix) (k := k) m x
  rw [spanFrom_add]
  split <;> omega

end

theorem finddiff_eq (pix : Nat → Bool) (bs be : Nat) (k : Bool) :
    finddiff pix bs be k = bs + spanFrom pix k bs (be - bs) := by
  cases k <;> rfl

/-! ### The tables (R225) -/

/-- The bits of a byte by column: column 0 is the most significant bit. -/
def byteColumn (v : Byte) (i : Nat) : Bool := v.getLsbD (7 - i)

theorem leadingRun_eq (k : Bool) (v : Byte) : ∀ n, n ≤ 8 → leadingRun k v n = spanFrom (byteColumn v) k (8 - n) n := by
  intro n
  induction n with
  | zero => intro _; rfl
  | succ n ih =>
    intro h
    have hcol : byteColumn v (8 - (n + 1)) = v.getLsbD n := by rw [byteColumn]; congr 1; omega
    rw [leadingRun, spanFrom, hcol, ih (by omega), show 8 - (n + 1) + 1 = 8 - n by omega]

/-- The entries of the table for runs of the bit `k`: `ZERORUNS` or `ONERUNS`. -/
def runTable (k : Bool) (v : Byte) : Nat := leadingRun k v 8

theorem runTable_eq (k : Bool) (v : Byte) : runTable k v = spanFrom (byteColumn v) k 0 8 := leadingRun_eq k v 8 le_rfl

theorem leadingRun_xor (v : Byte) : ∀ n, n ≤ 8 → leadingRun true v n = leadingRun false (v ^^^ 0xFF) n := by
  intro n
  induction n with
  | zero => intro _; rfl
  | succ n ih =>
    intro h
    have hbit : (v ^^^ 0xFF).getLsbD n = !v.getLsbD n := by
      have hones : (0xFF : Byte) = BitVec.allOnes 8 := rfl
      rw [hones, BitVec.xor_allOnes, BitVec.getLsbD_not, decide_eq_true (by omega), Bool.true_and]
    rw [leadingRun, leadingRun, hbit, ih (by omega)]
    cases v.getLsbD n <;> rfl

/-! ### The finder over whole bytes (R225) -/

section
variable {byteAt : Nat → Byte} {k : Bool}

/-- The columns of a byte are pixels of the line. -/
theorem bitAt_byte (j : Nat) {i : Nat} (h : i < 8) : bitAt byteAt (8 * j + i) = byteColumn (byteAt j) i := by
  rw [bitAt, byteColumn, show (8 * j + i) / 8 = j by omega, show (8 * j + i) % 8 = i by omega]

theorem tableSpan_eq : ∀ n j, tableSpan (runTable k) byteAt j n = spanFrom (bitAt byteAt) k (8 * j) (8 * n) := by
  intro n
  induction n with
  | zero => intro j; rfl
  | succ n ih =>
    intro j
    have hbyte : runTable k (byteAt j) = spanFrom (bitAt byteAt) k (8 * j) 8 := by
      rw [runTable_eq]
      refine spanFrom_congr 8 _ _ fun i hi => ?_
      rw [bitAt_byte j hi, Nat.zero_add]
    rw [tableSpan, hbyte, ih, Nat.mul_succ 8 n, Nat.add_comm (8 * n), spanFrom_add, Nat.mul_succ]

/-- The partial first byte, shifted and cut off, gives the span up to the byte's end. -/
theorem firstByte_eq (bs : Nat) :
    min (8 - bs % 8) (runTable k (byteAt (bs / 8) <<< (bs % 8))) = spanFrom (bitAt byteAt) k bs (8 - bs % 8) := by
  rw [runTable_eq, ← spanFrom_min (Nat.sub_le 8 _)]
  refine spanFrom_congr _ _ _ fun i hi => ?_
  have hcol : bitAt byteAt (bs + i) = byteColumn (byteAt (bs / 8)) (bs % 8 + i) := by
    rw [← bitAt_byte _ (by omega), ← Nat.add_assoc, Nat.div_add_mod]
  rw [hcol, byteColumn, byteColumn, BitVec.getLsbD_shiftLeft, Nat.zero_add, decide_eq_true (by omega),
    decide_eq_false (by omega)]
  simp only [Bool.not_false, Bool.true_and]
  congr 1
  omega

/-- The byte-wise finder finds the span of the line's bits. -/
theorem fastSpan_eq {bs be : Nat} :
    fastSpan (runTable k) byteAt bs be = spanFrom (bitAt byteAt) k bs (be - bs) := by
  have hend : be - bs ≤ 8 - bs % 8 + 8 * (ceilDiv be 8 - (bs / 8 + 1)) := by
    unfold ceilDiv
    omega
  have hnext : bs + (8 - bs % 8) = 8 * (bs / 8 + 1) := by omega
  rw [spanFrom_min hend, spanFrom_add, hnext, ← tableSpan_eq, ← firstByte_eq]
  rfl

/-- Below the width the pixels are the line's bits. -/
theorem fastSpan_pixel {width bs be : Nat} (h : bs ≤ be) (hw : be ≤ width) :
    fastSpan (runTable k) byteAt bs be = spanFrom (pixel byteAt width) k bs (be - bs) := by
  rw [fastSpan_eq]
  refine spanFrom_congr _ _ _ fun i hi => ?_
  rw [pixel, if_pos (by omega), bitAt]

end

/-- Settles O38: the laws of `spanFrom` for the finders of R224, and `fastSpan_pixel` for the tables of R225. -/
theorem spanFinders : Obligations.SpanFinders := by
  unfold Obligations.SpanFinders
  refine ⟨fun pix bs be k => ?finders, fun v => leadingRun_xor v 8 le_rfl,
    fun byteAt width bs be h hw => ⟨fastSpan_pixel h hw, fastSpan_pixel h hw⟩⟩
  case finders =>
    have hle := spanFrom_le (pix := pix) (k := k) (be - bs) bs
    dsimp only
    rw [finddiff2, finddiff_eq]
    refine ⟨fun h => ⟨?_, if_neg (Nat.not_lt.mpr h)⟩, fun h => ⟨Nat.le_add_right _ _, ?_, if_pos h,
      spanFrom_inside (be - bs) bs, fun hr => spanFrom_stops _ _ ?_⟩⟩ <;> omega

end Sys2Proof.Proofs
end

section
/-! PROOFS. The pad bits of a row have no effect: a mode step sees its lines through their pixels only (42_g4_encoder.md
R223, R236). -/

namespace Sys2Proof.Proofs

open Sys2Proof.Machine Sys2Proof.Laws

/-- Two units that differ in the bytes of their lines alone, and whose lines show the same pixels (R223). -/
structure LinesAgree (g g' : G4e) : Prop where
  frame : g' = { g with cur := g'.cur, ref := g'.ref }
  cur : g'.curPixel = g.curPixel
  ref : g'.refPixel = g.refPixel

/-- Two answers of the packer that agree so. -/
inductive AnswersAgree : Except G4e G4e → Except G4e G4e → Prop
  | ok {g g' : G4e} (h : LinesAgree g g') : AnswersAgree (.ok g) (.ok g')
  | error {g g' : G4e} (h : LinesAgree g g') : AnswersAgree (.error g) (.error g')

section
variable {cfg : Config} {g g' : G4e}

theorem linesAgree_exists (h : LinesAgree g g') : ∃ c r, g' = { g with cur := c, ref := r } := ⟨_, _, h.frame⟩

/-! ### The packer -/

theorem emitAcc_agrees (h : LinesAgree g g') : AnswersAgree (g.emitAcc cfg) (g'.emitAcc cfg) := by
  obtain ⟨c, r, rfl⟩ := linesAgree_exists h
  unfold G4e.emitAcc G4e.emitByte
  by_cases hfull : cfg.maxOut ≤ g.sh.outLen.toNat
  · simp only [if_pos hfull]
    exact .error ⟨rfl, h.cur, h.ref⟩
  · simp only [if_neg hfull]
    exact .ok ⟨rfl, h.cur, h.ref⟩

/-- The packer's registers may change alike. -/
theorem linesAgree_packer (h : LinesAgree g g') (a : Byte) (f : BitVec 4) :
    LinesAgree { g with acc := a, free := f } { g' with acc := a, free := f } :=
  ⟨by rw [h.frame], h.cur, h.ref⟩

theorem bind_agrees {r r' : Except G4e G4e} (h : AnswersAgree r r') {k k' : G4e → Except G4e G4e}
    (hk : ∀ g1 g1', LinesAgree g1 g1' → AnswersAgree (k g1) (k' g1')) : AnswersAgree (r.bind k) (r'.bind k') := by
  cases h with
  | ok h => exact hk _ _ h
  | error h => exact .error h

/-- A turn of the packer's loop that fills `ACC`: the byte is sent, then the rest of the word (R235). -/
theorem pack_fills {fuel len code : Nat} (h : g.free.toNat < len) :
    g.pack cfg (fuel + 1) len code =
      (G4e.emitAcc cfg { g with acc := g.acc ||| BitVec.ofNat 8 (code >>> (len - g.free.toNat)) }).bind
        (G4e.pack cfg fuel (len - g.free.toNat) (code % 2 ^ (len - g.free.toNat))) := by
  rw [G4e.pack]
  dsimp only
  rw [if_pos h]
  split
  · next e he => rw [he]; rfl
  · next g1 he => rw [he]; rfl

/-- The last turn of the packer's loop: the rest of the word goes into `ACC`, which is sent where it is full (R235). -/
theorem pack_ends {fuel len code : Nat} (h : len ≤ g.free.toNat) :
    g.pack cfg (fuel + 1) len code =
      let g1 : G4e := { g with
        acc := g.acc ||| BitVec.ofNat 8 (code <<< (g.free.toNat - len))
        free := BitVec.ofNat 4 (g.free.toNat - len) }
      if g.free.toNat = len then g1.emitAcc cfg else .ok g1 := by
  rw [G4e.pack]
  dsimp only
  rw [if_neg (Nat.not_lt.mpr h)]

theorem pack_agrees : ∀ (fuel len code : Nat) {g g' : G4e}, LinesAgree g g' →
    AnswersAgree (g.pack cfg fuel len code) (g'.pack cfg fuel len code) := by
  intro fuel
  induction fuel with
  | zero => intro len code g g' h; exact .ok h
  | succ fuel ih =>
    intro len code g g' h
    have hacc : g'.acc = g.acc := by rw [h.frame]
    have hfree : g'.free = g.free := by rw [h.frame]
    rcases Nat.lt_or_ge g.free.toNat len with hlt | hge
    · rw [pack_fills hlt, pack_fills (hfree ▸ hlt), hacc, hfree]
      exact bind_agrees (emitAcc_agrees (linesAgree_packer h _ _)) fun g1 g1' h1 => ih _ _ h1
    · rw [pack_ends hge, pack_ends (hfree ▸ hge), hacc, hfree]
      dsimp only
      split
      · exact emitAcc_agrees (linesAgree_packer h _ _)
      · exact .ok (linesAgree_packer h _ _)

theorem putbits_agrees (h : LinesAgree g g') (c : CodeWord) : AnswersAgree (g.putbits cfg c) (g'.putbits cfg c) :=
  pack_agrees _ _ _ h

theorem thenDo_agrees {r r' : Except G4e G4e} (h : AnswersAgree r r') {k k' : G4e → G4e}
    (hk : ∀ g1 g1', LinesAgree g1 g1' → LinesAgree (k g1) (k' g1')) :
    LinesAgree (G4e.thenDo r k) (G4e.thenDo r' k') := by
  cases h with
  | ok h => exact hk _ _ h
  | error h => exact h

theorem packed_agrees {r r' : Except G4e G4e} (h : AnswersAgree r r') : LinesAgree (packed r) (packed r') := by
  cases h with
  | ok h => exact h
  | error h => exact h

/-! ### The changing elements (R226 to R229) -/

theorem b2_agrees (h : LinesAgree g g') : g'.b2 = g.b2 := by
  obtain ⟨c, r, rfl⟩ := linesAgree_exists h
  unfold G4e.b2
  rw [h.ref]
  rfl

theorem a2_agrees (h : LinesAgree g g') : g'.a2 = g.a2 := by
  obtain ⟨c, r, rfl⟩ := linesAgree_exists h
  unfold G4e.a2
  rw [h.cur]
  rfl

theorem modeRuns_agree (h : LinesAgree g g') : g'.modeRuns = g.modeRuns := by
  have ha2 := a2_agrees h
  obtain ⟨c, r, rfl⟩ := linesAgree_exists h
  unfold G4e.modeRuns G4e.firstColour
  rw [ha2, h.cur]

theorem mode_agrees (h : LinesAgree g g') : g'.mode = g.mode := by
  have hb2 := b2_agrees h
  obtain ⟨c, r, rfl⟩ := linesAgree_exists h
  unfold G4e.mode
  rw [hb2]
  rfl

/-! ### Row end and advance (R229, R236) -/

theorem advance_agrees (h : LinesAgree g g') : LinesAgree g.advance g'.advance := by
  obtain ⟨c, r, rfl⟩ := linesAgree_exists h
  refine ⟨?_, h.cur, h.ref⟩
  unfold G4e.advance
  rw [h.cur, h.ref]
  rfl

/-- Row end makes the coding line's pixels those of the reference line, whatever its pad bits (R236). -/
theorem endRow_refPixel (g : G4e) : g.endRow.refPixel = g.curPixel := by
  funext x
  change pixel (cell .ref g.sh.inGen g.endRow.ref) g.width x = pixel (cell .cur g.sh.inGen g.cur) g.width x
  unfold pixel
  split
  · next hx =>
    have hbyte : x / 8 < g.rowBytes := by
      unfold G4e.rowBytes ceilDiv
      omega
    rw [endRow_refCell, if_pos hbyte]
  · rfl

theorem endRow_agrees (h : LinesAgree g g') : LinesAgree g.endRow g'.endRow := by
  refine ⟨?_, h.cur, by rw [endRow_refPixel, endRow_refPixel, h.cur]⟩
  obtain ⟨c, r, rfl⟩ := linesAgree_exists h
  rfl

theorem afterMode_agrees (h : LinesAgree g g') : LinesAgree g.afterMode g'.afterMode := by
  have hwidth : g'.width = g.width := by rw [h.frame]; rfl
  have ha0 : g'.a0 = g.a0 := by rw [h.frame]
  rcases Nat.lt_or_ge g.a0.toNat g.width with hlt | hge
  · rw [afterMode_advance g hlt, afterMode_advance g' (by rwa [hwidth, ha0])]
    exact advance_agrees h
  · rw [afterMode_end g hge, afterMode_end g' (by rwa [hwidth, ha0])]
    exact endRow_agrees h

theorem linesAgree_pend (h : LinesAgree g g') (ws : List RunWord) :
    LinesAgree { g with pend := ws } { g' with pend := ws } :=
  ⟨by rw [h.frame], h.cur, h.ref⟩

/-- What follows a mode that set `A0` and left run words. -/
theorem modeEnd_agrees (h : LinesAgree g g') (x : Word) (ws : List RunWord) :
    LinesAgree (G4e.afterMode { g with pend := g.pend ++ ws, a0 := x })
      (G4e.afterMode { g' with pend := g'.pend ++ ws, a0 := x }) :=
  afterMode_agrees ⟨by rw [h.frame], h.cur, h.ref⟩

/-! ### Modes (R231 to R233) -/

theorem passMode_agrees (h : LinesAgree g g') : LinesAgree (g.passMode cfg) (g'.passMode cfg) := by
  refine thenDo_agrees (putbits_agrees h _) fun g1 g1' h1 => ?_
  have hend := modeEnd_agrees h1 (word g.b2) []
  simpa only [List.append_nil, b2_agrees h] using hend

theorem vertical_agrees (h : LinesAgree g g') (c : CodeWord) : LinesAgree (g.vertical cfg c) (g'.vertical cfg c) := by
  have ha1 : g'.a1 = g.a1 := by rw [h.frame]
  refine thenDo_agrees (putbits_agrees h _) fun g1 g1' h1 => ?_
  have hend := modeEnd_agrees h1 g.a1 []
  simpa only [List.append_nil, ha1] using hend

theorem horizontal_agrees (h : LinesAgree g g') : LinesAgree (g.horizontal cfg) (g'.horizontal cfg) := by
  refine thenDo_agrees (putbits_agrees h _) fun g1 g1' h1 => ?_
  rw [modeRuns_agree h, a2_agrees h]
  exact modeEnd_agrees h1 (word g.a2) g.modeRuns

end

/-! ### The step -/

/-- A vertical element sends its word of the mode table (R232). -/
theorem exec_verticalOf {d : Int} {i : Instr} (h : verticalOf d = some i) :
    ∃ c : ModeTab → CodeWord, ∀ s, exec i s = .next { s with g4e := s.g4e.vertical s.cfg (c s.cfg.modeTab) } := by
  unfold verticalOf at h
  split_ifs at h <;> obtain rfl := Option.some.inj h
  · exact ⟨ModeTab.vr3, fun _ => rfl⟩
  · exact ⟨ModeTab.vr2, fun _ => rfl⟩
  · exact ⟨ModeTab.vr1, fun _ => rfl⟩
  · exact ⟨ModeTab.v0, fun _ => rfl⟩
  · exact ⟨ModeTab.vl1, fun _ => rfl⟩
  · exact ⟨ModeTab.vl2, fun _ => rfl⟩
  · exact ⟨ModeTab.vl3, fun _ => rfl⟩

/-- Two answers of the machine that agree but for the bytes of G4E's lines. -/
def StepsAgree (s : State) (r r' : Result) : Prop :=
  ∃ t t' : G4e, r = .next { s with g4e := t } ∧ r' = .next { s with g4e := t' } ∧ LinesAgree t t'

section
variable {s : State} {g g' : G4e}

theorem exec_mode_agrees (h : LinesAgree g g') :
    StepsAgree s (exec g.mode { s with g4e := g }) (exec g.mode { s with g4e := g' }) := by
  unfold G4e.mode
  split
  · exact ⟨_, _, rfl, rfl, passMode_agrees h⟩
  · cases hv : verticalOf g.diff with
    | none => exact ⟨_, _, rfl, rfl, horizontal_agrees h⟩
    | some i =>
      obtain ⟨c, hc⟩ := exec_verticalOf hv
      exact ⟨_, _, hc _, hc _, vertical_agrees h _⟩

/-- Run words are packed alike (R234). -/
theorem drain_agrees (hwf : s.cfg.wf = true) : ∀ (ws : List RunWord) {g g' : G4e}, LinesAgree g g' →
    StepsAgree s (drain ws { s with g4e := g }) (drain ws { s with g4e := g' }) := by
  intro ws
  induction ws with
  | nil => intro g g' h; exact ⟨g, g', rfl, rfl, h⟩
  | cons w ws ih =>
    intro g g' h
    obtain ⟨i, hi, hexec⟩ := exec_runWord w
    obtain ⟨c, hcode, -⟩ := runCode_isSome s.cfg w hwf
    have hrun (g : G4e) := (hexec { s with g4e := { g with pend := ws } }).trans (emitRun_eq w _ c hcode)
    have hput : LinesAgree (packed (G4e.putbits s.cfg c { g with pend := ws }))
        (packed (G4e.putbits s.cfg c { g' with pend := ws })) :=
      packed_agrees (putbits_agrees (linesAgree_pend h ws) c)
    rw [drain_cons { s with g4e := g } w ws i _ hi (hrun g), drain_cons { s with g4e := g' } w ws i _ hi (hrun g')]
    dsimp only
    generalize packed (G4e.putbits s.cfg c { g with pend := ws }) = t at hput ⊢
    generalize packed (G4e.putbits s.cfg c { g' with pend := ws }) = t' at hput ⊢
    have hsh : t'.sh = t.sh := by rw [hput.frame]
    rw [hsh]
    split
    · exact ih hput
    · exact ⟨t, t', rfl, rfl, hput⟩

/-- A mode with its run words goes on alike (R230). -/
theorem runMode_agrees (hwf : s.cfg.wf = true) (h : LinesAgree g g') :
    StepsAgree s (runMode g.mode { s with g4e := g }) (runMode g'.mode { s with g4e := g' }) := by
  obtain ⟨t, t', ht, ht', hagree⟩ := exec_mode_agrees (s := s) h
  have hsh : t'.sh = t.sh := by rw [hagree.frame]
  have hpend : t'.pend = t.pend := by rw [hagree.frame]
  rw [mode_agrees h, runMode_next _ _ _ ht, runMode_next _ _ _ ht']
  dsimp only
  rw [hsh, hpend]
  split
  · exact drain_agrees hwf t.pend hagree
  · exact ⟨t, t', rfl, rfl, hagree⟩

end

/-- Settles O39: the mode step of two units whose lines agree, by `runMode_agrees`. -/
theorem padBitsHaveNoEffect : Obligations.PadBitsHaveNoEffect := by
  unfold Obligations.PadBitsHaveNoEffect
  rintro s s' cur ref rfl hr hwf hb hi hcur href
  have hlines : LinesAgree s.g4e { s.g4e with cur := cur, ref := ref } := ⟨rfl, hcur, href⟩
  obtain ⟨t, t', ht, ht', hagree⟩ := runMode_agrees (s := s) hwf hlines
  have hstep := unitStep_mode hb hr.nothingPending hi
  have hstep' := unitStep_mode (s := { s with g4e := { s.g4e with cur := cur, ref := ref } }) hb hr.nothingPending hi
  exact ⟨_, _, hstep.trans ht, hstep'.trans ht', congrArg (fun g => { s with g4e := g }) hagree.frame,
    hagree.cur, hagree.ref⟩

end Sys2Proof.Proofs
end

section
/-! PROOFS. What a decoder accepts is well formed, and outside RLD is the encoding of what it decoded to (30_encoding.md R101 to
R116). -/

namespace Sys2Proof.Proofs

open Sys2Proof.Laws

/-! ### PFE records (30_encoding.md R101, R102) -/

theorem byte_of_filterOf {b : Byte} {f : Filter} (h : filterOf b = some f) : f.byte = b := by
  unfold filterOf at h
  split_ifs at h <;> obtain rfl := Option.some.inj h <;> symm <;> assumption

theorem encode_decode_scan {prb : Nat} {c : Code} {i : Instr} (h : decode (.scan prb) c = .ok i) :
    wf (.scan prb) i = true ∧ encode (.scan prb) i = some c := by
  cases c with
  | bits bs => cases h
  | word v => cases h
  | bytes bs =>
    have h := (whole_eq_ok _ i).mp h
    match bs with
    | [] => cases h
    | ft :: rest =>
      simp only [decodeScan] at h
      cases hf : filterOf ft with
      | none => rw [hf] at h; cases h
      | some f =>
        rw [hf] at h
        dsimp only at h
        split_ifs at h with hshort
        obtain ⟨rfl, hrest⟩ := Prod.mk.inj (Except.ok.inj h)
        obtain rfl : rest.length = prb := le_antisymm (List.drop_eq_nil_iff.mp hrest) (Nat.not_lt.mp hshort)
        rw [List.take_length, encode_filter, byte_of_filterOf hf]
        exact ⟨wf_filter f rest, rfl⟩

/-! ### RLD commands (30_encoding.md R103 to R108) -/

/-- No command is shorter than two bytes (R103). -/
theorem decodeRle_short (m : Bool) {bs : List Byte} (h : bs.length < 2) : decodeRle m bs = .error .truncated := by
  match bs with
  | [] => rfl
  | [_] => rfl
  | _ :: _ :: _ => simp at h

/-- `RLE.DELTA` has two operand bytes (R105). -/
theorem decodeRle_delta_short (m : Bool) {rest : List Byte} (h : rest.length < 2) :
    decodeRle m (0 :: 2 :: rest) = .error .truncated := by
  match rest with
  | [] => rfl
  | [_] => rfl
  | _ :: _ :: _ => simp at h

/-- An absolute run without its data bytes and its pad (R106, R107). -/
theorem decodeRle_abs_short (m : Bool) {n : Byte} (hn : 3 ≤ n.toNat) {rest : List Byte}
    (hlen : rest.length < absDataBytes m n.toNat + padBytes (absDataBytes m n.toNat)) :
    decodeRle m (0 :: n :: rest) = .error .truncated := by
  have ne : ∀ v : Byte, v.toNat < 3 → n ≠ v := by rintro v hv rfl; omega
  unfold decodeRle
  dsimp only
  rw [if_neg (not_not.mpr rfl), if_neg (ne 0 (by decide)), if_neg (ne 1 (by decide)), if_neg (ne 2 (by decide)),
    if_pos hlen]

theorem wf_rle_run (m : Bool) {n : Byte} (hn : n ≠ 0) (b : Byte) :
    wf (.rle m) (if m then .rle4Run n (hiNibble b) (loNibble b) else .rle8Run n b) = true := by
  cases m <;> exact bne_iff_ne.mpr hn

theorem wf_rle_abs (m : Bool) {n : Byte} (hn : 3 ≤ n.toNat) {d : List Byte} (hd : d.length = absDataBytes m n.toNat) :
    wf (.rle m) (if m then .rle4Abs n d else .rle8Abs n d) = true := by
  cases m <;> exact (Bool.and_eq_true _ _).mpr ⟨decide_eq_true hn, beq_iff_eq.mpr hd⟩

/-- After a first byte 0, the second byte is 0, 1, 2 or the pixel count of an absolute run (R103). -/
theorem secondByte_cases (n : Byte) : n = 0 ∨ n = 1 ∨ n = 2 ∨ 3 ≤ n.toNat := by bv_omega

theorem wf_decodeRle {m : Bool} {bs rest : List Byte} {i : Instr} (h : decodeRle m bs = .ok (i, rest)) :
    wf (.rle m) i = true := by
  match bs with
  | [] => cases h
  | [_] => cases h
  | b0 :: b1 :: tl =>
    by_cases h0 : b0 = 0
    case neg =>
      obtain ⟨rfl, -⟩ := Prod.mk.inj (Except.ok.inj ((decodeRle_run m h0 b1 tl).symm.trans h))
      exact wf_rle_run m h0 b1
    subst h0
    obtain rfl | rfl | rfl | hn := secondByte_cases b1
    · obtain ⟨rfl, -⟩ := Prod.mk.inj (Except.ok.inj h)
      cases m <;> rfl
    · obtain ⟨rfl, -⟩ := Prod.mk.inj (Except.ok.inj h)
      cases m <;> rfl
    · match tl with
      | [] => cases h
      | [_] => cases h
      | dx :: dy :: tl =>
        obtain ⟨rfl, -⟩ := Prod.mk.inj (Except.ok.inj h)
        cases m <;> rfl
    · rcases Nat.lt_or_ge tl.length (absDataBytes m b1.toNat + padBytes (absDataBytes m b1.toNat)) with hlen | hlen
      · cases (decodeRle_abs_short m hn hlen).symm.trans h
      · obtain ⟨rfl, -⟩ := Prod.mk.inj (Except.ok.inj ((decodeRle_abs m hn hlen).symm.trans h))
        exact wf_rle_abs m hn (by rw [List.length_take]; omega)

theorem wf_decode_rle {m : Bool} {c : Code} {i : Instr} (h : decode (.rle m) c = .ok i) : wf (.rle m) i = true := by
  cases c with
  | bytes bs => exact wf_decodeRle ((whole_eq_ok _ i).mp h)
  | bits bs => cases h
  | word v => cases h

/-! ### LZW codes (30_encoding.md R109 to R111) -/

section
variable {x : LzwCx}

/-- A code that fits the code size is well formed in its class. -/
theorem wf_classify (hx : x.ok = true) {c : BitVec 12} (hc : c.toNat < 2 ^ x.codeSize) :
    wf (.lzw x) (classify x c) = true := by
  have hfits : x.fits c.toNat = true := decide_eq_true hc
  have heoi : x.eoi = x.clear + 1 := rfl
  have hfree : x.firstFree = x.clear + 2 := rfl
  unfold classify
  split_ifs with h1 h2 hv hr ha hl
  · exact hx
  · exact hx
  · rw [wf_lzwRef, hx, hv, hr, hfits]
    rfl
  · have h12 := c.isLt
    rw [wf_lzwKwk, hx, hv, ← ha, hfits, decide_eq_true (by omega)]
    rfl
  · have hill : x.isIllegal c.toNat = true := by
      rw [isRef_iff] at hr
      rw [isIllegal_iff, if_pos hv]
      omega
    rw [wf_lzwIllegal, hx, hill, hfits]
    rfl
  · rw [wf_lzwLit, hx, Bool.eq_false_of_not_eq_true hv, decide_eq_true hl]
    rfl
  · have hill : x.isIllegal c.toNat = true := by
      rw [isIllegal_iff, if_neg hv]
      omega
    rw [wf_lzwIllegal, hx, hill, hfits]
    rfl

/-- A code is written as itself, whatever its class. -/
theorem encode_classify (x : LzwCx) (c : BitVec 12) : encode (.lzw x) (classify x c) = some (.bits (x.bits c.toNat)) := by
  unfold classify
  split_ifs with h1 h2 hv hr ha
  · rw [encode_lzwClear, h1]
  · rw [encode_lzwEoi, h2]
  · exact encode_lzwRef x c
  · rw [encode_lzwKwk, ha]
  · exact encode_lzwIllegal x c
  · exact encode_lzwLit x c
  · exact encode_lzwIllegal x c

theorem lsbValue_lt (bs : List Bool) : lsbValue bs < 2 ^ bs.length := by
  rw [← lsbBits_lsbValue bs, lsbValue_lsbBits, lsbBits_length]
  exact Nat.mod_lt _ (by positivity)

/-- The bits of a code are those of its value, in either bit order (R109, R110). -/
theorem lzwBits_value (x : LzwCx) {bs : List Bool} (h : bs.length = x.codeSize) :
    (if x.tiff then msbValue bs else lsbValue bs) < 2 ^ x.codeSize ∧
      x.bits (if x.tiff then msbValue bs else lsbValue bs) = bs := by
  unfold LzwCx.bits
  rw [← h]
  split
  · exact ⟨List.length_reverse (as := bs) ▸ lsbValue_lt bs.reverse, msbBits_msbValue bs⟩
  · exact ⟨lsbValue_lt bs, lsbBits_lsbValue bs⟩

theorem encode_decode_lzw (hx : x.ok = true) {c : Code} {i : Instr} (h : decode (.lzw x) c = .ok i) :
    wf (.lzw x) i = true ∧ encode (.lzw x) i = some c := by
  cases c with
  | bytes bs => cases h
  | word v => cases h
  | bits bs =>
    have h := (whole_eq_ok _ i).mp h
    have hshort : ¬bs.length < x.codeSize := fun hs => by rw [decodeLzw, if_pos hs] at h; cases h
    rw [decodeLzw, if_neg hshort] at h
    obtain ⟨rfl, hrest⟩ := Prod.mk.inj (Except.ok.inj h)
    have hlen : bs.length = x.codeSize := le_antisymm (List.drop_eq_nil_iff.mp hrest) (Nat.not_lt.mp hshort)
    rw [List.take_of_length_le hlen.le]
    obtain ⟨hlt, hbits⟩ := lzwBits_value x hlen
    generalize (if x.tiff then msbValue bs else lsbValue bs) = v at hlt hbits
    obtain ⟨-, -, -, h12, -, -⟩ := (lzwCxOk_iff x).mp hx
    have hv : (BitVec.ofNat 12 v).toNat = v :=
      BitVec.toNat_ofNat .. ▸ Nat.mod_eq_of_lt (hlt.trans_le (Nat.pow_le_pow_right (by decide) h12))
    exact ⟨wf_classify hx (hv.symm ▸ hlt), by rw [encode_classify, hv, hbits]⟩

end

/-! ### G4E code words (30_encoding.md R112, R114) -/

/-- A table's elements have their places in it, in order. -/
theorem g4Index_g4Instrs (t : G4Table) :
    (g4Instrs t).map Instr.g4Index = (List.range (g4Instrs t).length).map fun k => some (t, k) := by
  cases t <;> rfl

/-- A pair of the decoder's list is an element of the table with its own word. -/
theorem g4Word_of_mem_zip {t : G4Table} {w : CodeWord} {i : Instr} (h : (w, i) ∈ (printedCodes t).zip (g4Instrs t)) :
    wf (.g4 t) i = true ∧ i.g4Word = some w := by
  obtain ⟨k, hk⟩ := List.mem_iff_getElem?.mp h
  obtain ⟨hw, hi⟩ := List.getElem?_zip_eq_some.mp hk
  have hmap := congrArg (fun xs => xs[k]?) (g4Index_g4Instrs t)
  simp only [List.getElem?_map] at hmap
  rw [hi, List.getElem?_range (List.getElem?_eq_some_iff.mp hi).1] at hmap
  have hindex : i.g4Index = some (t, k) := Option.some.inj hmap
  refine ⟨?_, ?_⟩
  · rw [wf_g4, hindex]
    exact beq_self_eq_true _
  · rw [Instr.g4Word, hindex]
    exact hw

theorem encode_decode_g4 {t : G4Table} {c : Code} {i : Instr} (h : decode (.g4 t) c = .ok i) :
    wf (.g4 t) i = true ∧ encode (.g4 t) i = some c := by
  cases c with
  | bytes bs => cases h
  | word v => cases h
  | bits bs =>
    have h := (whole_eq_ok _ i).mp h
    unfold decodeG4 at h
    split at h
    · cases h
    · next p hp =>
      obtain ⟨rfl, hrest⟩ := Prod.mk.inj (Except.ok.inj h)
      obtain ⟨hmem, hprefix⟩ := matchWord_eq_some bs _ p hp
      have hbits : p.1.bits = bs :=
        hprefix.eq_of_length_le ((List.drop_eq_nil_iff.mp hrest).trans (bits_length p.1).ge)
      obtain ⟨hwf, hword⟩ := g4Word_of_mem_zip hmem
      rw [encode_g4, hword, ← hbits]
      exact ⟨hwf, rfl⟩

/-! ### Commands (30_encoding.md R116) -/

theorem encode_decode_cmd {u : UnitId} {c : Code} {i : Instr} (h : decode (.cmd u) c = .ok i) :
    wf (.cmd u) i = true ∧ encode (.cmd u) i = some c := by
  cases c with
  | bytes bs => cases h
  | bits bs => cases h
  | word v =>
    have h : decodeCmd u v = .ok i := h
    unfold decodeCmd at h
    split_ifs at h with h1 h2
    · obtain rfl := Except.ok.inj h
      exact ⟨beq_self_eq_true u, by rw [encode_cmdStart, h1]⟩
    · obtain rfl := Except.ok.inj h
      exact ⟨beq_self_eq_true u, by rw [encode_cmdClear, h2]⟩

/-- Settles O2: in each context, what the decoder answers is well formed and its encoding is the code read. -/
theorem encodeInvertsDecode : Obligations.EncodeInvertsDecode := by
  unfold Obligations.EncodeInvertsDecode
  intro cx c i hx h
  have all {P Q : Prop} (hpq : P ∧ Q) : P ∧ ((∀ m, cx ≠ .rle m) → Q) := ⟨hpq.1, fun _ => hpq.2⟩
  cases cx with
  | scan prb => exact all (encode_decode_scan h)
  | rle m => exact ⟨wf_decode_rle h, fun hm => absurd rfl (hm m)⟩
  | lzw x => exact all (encode_decode_lzw (hx x rfl) h)
  | g4 t => exact all (encode_decode_g4 h)
  | cmd u => exact all (encode_decode_cmd h)

end Sys2Proof.Proofs
end

section
/-! PROOFS. RLD's commands, its truncations and START (43_bmp_rle.md R261 to R272; 44_host_commands.md R292). -/

namespace Sys2Proof.Proofs

open Sys2Proof.Machine Sys2Proof.Laws

/-! ### START (R261, R262, R292) -/

theorem exec_startRld (s : State) : exec (.cmdStart .rld) s = .next { s with rld := s.rld.start s.cfg } := rfl

section
variable {cfg : Config} {r : Rld}

theorem rldStart_ignored (h : r.sh.state ≠ .idle) : r.start cfg = r := if_neg h

/-- What START clears first does not touch the configuration. -/
theorem rldLegal_startClear : Rld.legal cfg { r with sh := r.sh.startClear } = r.legal cfg := rfl

theorem rldStart_illegal (hi : r.sh.state = .idle) (hl : ¬r.legal cfg = true) :
    r.start cfg = { r with sh := r.sh.startClear.raise .cfg 0 } := by
  rw [Rld.start, if_pos hi]
  exact if_neg (rldLegal_startClear ▸ hl)

theorem rldStart_legal (hi : r.sh.state = .idle) (hl : r.legal cfg = true) :
    r.start cfg = Rld.init { r with sh := r.sh.startClear } := by
  rw [Rld.start, if_pos hi]
  exact if_pos (rldLegal_startClear ▸ hl)

end

/-- Settles O48: START's three cases; the canvas is the one `clearCanvas` leaves. -/
theorem startRld : Obligations.StartRld := by
  unfold Obligations.StartRld
  intro s
  have hlegal := rldLegal_iff s.cfg s.rld
  refine ⟨fun hb => ?ignored, fun hi hl => ?illegal, fun hi hl => ?legal⟩
  case ignored => rw [exec_startRld, rldStart_ignored hb]
  case illegal =>
    rw [exec_startRld, rldStart_illegal hi fun h => hl ?_]
    · rfl
    · obtain ⟨hw1, hw, hh1, hh, hin, hsize⟩ := hlegal.mp h
      exact ⟨hin, hw1, hw, hh1, hh, hsize⟩
  case legal =>
    obtain ⟨hin, hw1, hw, hh1, hh, hsize⟩ := hl
    rw [exec_startRld, rldStart_legal hi (hlegal.mpr ⟨hw1, hw, hh1, hh, hin, hsize⟩)]
    exact ⟨_, rfl, rfl, outByte_clearCanvas .rld s.rld.sh.startClear (s.rld.width * s.rld.height)⟩

/-! ### The moves (R266 to R268) -/

/-- Settles O42: each of the three commands is one update of the unit. -/
theorem rleMoves : Obligations.RleMoves := by
  unfold Obligations.RleMoves
  intro s dx dy
  have heol : exec .rleEol s = .next { s with rld := s.rld.eol } := rfl
  have heob : exec .rleEob s = .next { s with rld := s.rld.eob } := rfl
  have hdelta : exec (.rleDelta dx dy) s = .next { s with rld := s.rld.delta dx dy } := rfl
  exact ⟨heol, heob, hdelta⟩

/-! ### Truncations (R263, R268 to R270) -/

/-- Two bytes and more left: the window is the command's first two bytes and what follows them. -/
theorem rldWindow_cons {sh : Shell} (h : sh.inPos.toNat + 1 < sh.inLen.toNat) :
    ∃ rest, sh.window .rld 258 =
        sh.inByte .rld (sh.inPos.toNat + 0) :: sh.inByte .rld (sh.inPos.toNat + 1) :: rest ∧
      rest.length = min 256 (sh.inLen.toNat - (sh.inPos.toNat + 2)) := by
  have hn : min 258 (sh.inLen.toNat - sh.inPos.toNat) = min 256 (sh.inLen.toNat - (sh.inPos.toNat + 2)) + 2 := by omega
  refine ⟨_, by rw [Shell.window, hn]; rfl, readBlock_length ..⟩

/-- A fetch that finds no whole command is `E_TRUNC` at the cursor (R263, 60_exceptions.md R314). -/
theorem unitStep_rld_truncated {s : State} (hb : s.rld.sh.state = .busy) {e : Reject}
    (h : decodeRle s.rld.mode4 (s.rld.sh.window .rld 258) = .error e) :
    unitStep .rld s = .next { s with rld := { s.rld with sh := s.rld.sh.Faulted .trunc s.rld.sh.inPos } } := by
  have hfetch : s.rld.fetch = .error .trunc := by rw [Rld.fetch, h]
  rw [unitStep_rld s hb, rldStep_faults s _ hfetch]
  rfl

/-- Settles O43: in each of the three cases the decoder finds the window too short. -/
theorem rldTruncations : Obligations.RldTruncations := by
  unfold Obligations.RldTruncations
  intro s hb sh p inAt n nb faults
  refine ⟨fun hin => ?first, fun hin h0 h1 hlen => ?delta, fun hin h0 hn hlen => ?absolute⟩
  case first =>
    have hlen : (s.rld.sh.window .rld 258).length < 2 := by
      have hin : s.rld.sh.inLen.toNat ≤ s.rld.sh.inPos.toNat + 1 := hin
      rw [window_length]
      omega
    exact unitStep_rld_truncated hb (decodeRle_short _ hlen)
  case delta =>
    obtain ⟨rest, hwin, hrest⟩ := rldWindow_cons hin
    refine unitStep_rld_truncated hb (e := .truncated) ?_
    rw [hwin]
    change decodeRle _ (inAt 0 :: inAt 1 :: rest) = _
    rw [h0, h1]
    exact decodeRle_delta_short _ (by omega)
  case absolute =>
    obtain ⟨rest, hwin, hrest⟩ := rldWindow_cons hin
    refine unitStep_rld_truncated hb (e := .truncated) ?_
    rw [hwin]
    change decodeRle _ (inAt 0 :: inAt 1 :: rest) = _
    rw [h0]
    refine decodeRle_abs_short _ hn ?_
    change rest.length < nb + nb % 2
    omega

/-! ### Writes of pixels (R264, R265, R269 to R272) -/

/-- The bounds check of R272. -/
theorem inside_iff (r : Rld) (n : Nat) : r.inside n = true ↔ r.y.toNat < r.height ∧ r.x.toNat + n ≤ r.width := by
  simp only [Rld.inside, Bool.and_eq_true, decide_eq_true_eq]

/-- A command that writes the pixels `pxs` does what its statement says of a write of them. -/
theorem pixelWrite_putRun {s : State} (hl : s.rld.legal s.cfg = true) {i : Instr} {pxs : List Byte} {px : Nat → Byte}
    {n len : Nat} (hexec : exec i s = settle (s.rld.putRun s.cfg pxs len) fun r => { s with rld := r })
    (hlen : pxs.length = n) (hpx : ∀ k, k < n → pxs.getD k 0 = px k) : PixelWrite i s n px len := by
  subst hlen
  obtain ⟨-, -, -, -, -, hsize⟩ := (rldLegal_iff _ _).mp hl
  refine ⟨fun hy hx => ?inside, fun hout => ?outside⟩
  case inside =>
    have hin := (inside_iff s.rld pxs.length).mpr ⟨hy, hx⟩
    rw [hexec, (putRun_eq_ok ..).mpr (.inr ⟨hin, (pixelCell_fits hin).trans hsize, rfl⟩)]
    refine ⟨_, rfl, rfl, rfl, fun a => (outByte_store .rld s.rld.sh s.rld.pixelCell pxs a).trans ?_⟩
    change (if s.rld.pixelCell ≤ a ∧ a < s.rld.pixelCell + pxs.length then _ else _) =
      if s.rld.pixelCell ≤ a ∧ a < s.rld.pixelCell + pxs.length then px (a - s.rld.pixelCell) else _
    split
    · exact hpx _ (by omega)
    · rfl
  case outside =>
    have hin : s.rld.inside pxs.length = false := by
      rw [Bool.eq_false_iff, ne_eq, inside_iff]
      omega
    rw [hexec, (putRun_eq_ok ..).mpr (.inl ⟨hin, rfl⟩)]
    rfl

/-- Settles O40: the pixels are `n` copies of the value, or the two nibbles in turn. -/
theorem encodedRuns : Obligations.EncodedRuns := by
  unfold Obligations.EncodedRuns
  intro s n v h l hr hwf
  refine ⟨pixelWrite_putRun hr.legal rfl List.length_replicate fun k hk => ?rle8,
    pixelWrite_putRun hr.legal rfl (alternating_length _ _ _) fun k hk => ?rle4⟩
  case rle8 => exact List.getD_replicate _ hk
  case rle4 =>
    rw [List.getD_eq_getElem?_getD, alternating_getElem?, if_pos hk]
    split <;> exact (BitVec.ofNat_toNat ..).symm

theorem hiNibble_setWidth (b : Byte) : (hiNibble b).setWidth 8 = b >>> 4 := by
  refine BitVec.eq_of_toNat_eq ?_
  rw [hiNibble, BitVec.toNat_setWidth, BitVec.extractLsb'_toNat, BitVec.toNat_ushiftRight, Nat.shiftRight_eq_div_pow]
  omega

theorem loNibble_setWidth (b : Byte) : (loNibble b).setWidth 8 = b &&& 15 := by
  refine BitVec.eq_of_toNat_eq ?_
  rw [loNibble, BitVec.toNat_setWidth, BitVec.extractLsb'_toNat, BitVec.toNat_and, Nat.shiftRight_zero]
  exact (Nat.mod_eq_of_lt (by omega)).trans (Nat.and_two_pow_sub_one_eq_mod b.toNat 4).symm

/-- Settles O41: the pixels are the data bytes, or their nibbles, the high one first. -/
theorem absoluteRuns : Obligations.AbsoluteRuns := by
  unfold Obligations.AbsoluteRuns
  intro s n d hr hwf nb nibble
  refine ⟨fun hd => ?rle8, fun hd => ?rle4⟩
  case rle8 =>
    refine pixelWrite_putRun hr.legal rfl (by rw [List.length_take]; omega) fun k hk => ?_
    rw [List.take_of_length_le hd.le]
  case rle4 =>
    have hpx : n.toNat ≤ 2 * d.length := by omega
    refine pixelWrite_putRun hr.legal rfl (abs4Pixels_length _ _ hpx) fun k hk => ?_
    rw [List.getD_eq_getElem?_getD, abs4Pixels, List.getElem?_take_of_lt hk, twoPixels_flatMap_getElem?,
      List.getElem?_eq_getElem (by omega : k / 2 < d.length)]
    dsimp only [nibble, Option.map_some, Option.getD_some]
    rw [List.getD_eq_getElem d 0 (by omega : k / 2 < d.length), hiNibble_setWidth, loNibble_setWidth]

end Sys2Proof.Proofs
end

section
/-! PROOFS. RLD runs that differ in `FLIP` alone keep canvases with the rows reversed (43_bmp_rle.md R272, R276). -/

namespace Sys2Proof.Proofs

open Sys2Proof.Machine Sys2Proof.Laws

/-! ### What RLD's turn does to the unit -/

/-- The updates of the unit that a turn of RLD consists of: a command's, or the fault of a fetch. -/
inductive RldOp (cfg : Config) : (Rld → Except Fault Rld) → Prop
  | fault (e : ErrCode) : RldOp cfg fun r => .ok { r with sh := r.sh.raise e r.sh.inPos }
  | run (px : List Byte) (len : Nat) : RldOp cfg (Rld.putRun cfg px len)
  | eol : RldOp cfg fun r => .ok r.eol
  | eob : RldOp cfg fun r => .ok r.eob
  | delta (dx dy : Byte) : RldOp cfg fun r => .ok (r.delta dx dy)

/-- A command that a stream holds is one such update, in every state with the same parameters. -/
theorem exec_rldOp {m : Bool} {bs rest : List Byte} {i : Instr} (h : decodeRle m bs = .ok (i, rest)) (cfg : Config) :
    ∃ op, RldOp cfg op ∧ ∀ s : State, s.cfg = cfg → exec i s = settle (op s.rld) fun r => { s with rld := r } := by
  obtain ⟨-, hi⟩ := decodeRle_ok h
  rcases hi with ⟨n, v, rfl⟩ | ⟨n, a, b, rfl⟩ | rfl | rfl | ⟨dx, dy, rfl, -⟩ | ⟨n, d, rfl, -⟩ | ⟨n, d, rfl, -⟩
  · exact ⟨_, .run _ _, by rintro s rfl; rfl⟩
  · exact ⟨_, .run _ _, by rintro s rfl; rfl⟩
  · exact ⟨_, .eol, fun s _ => rfl⟩
  · exact ⟨_, .eob, fun s _ => rfl⟩
  · exact ⟨_, .delta dx dy, fun s _ => rfl⟩
  · exact ⟨_, .run _ _, by rintro s rfl; rfl⟩
  · exact ⟨_, .run _ _, by rintro s rfl; rfl⟩

/-- Two units that fetch alike do the same update in their turns. -/
theorem rldStep_op {s s' : State} (hcfg : s'.cfg = s.cfg) (hfetch : s'.rld.fetch = s.rld.fetch) :
    ∃ op, RldOp s.cfg op ∧ rldStep s = settle (op s.rld) (fun r => { s with rld := r }) ∧
      rldStep s' = settle (op s'.rld) fun r => { s' with rld := r } := by
  cases h : s.rld.fetch with
  | error e => exact ⟨_, .fault e, rldStep_faults s e h, rldStep_faults s' e (hfetch.trans h)⟩
  | ok i =>
    rw [rldStep_runs s i h, rldStep_runs s' i (hfetch.trans h)]
    unfold Rld.fetch at h
    split at h
    · next hd =>
      obtain rfl := Except.ok.inj h
      obtain ⟨op, hop, hexec⟩ := exec_rldOp hd s.cfg
      exact ⟨op, hop, hexec s rfl, hexec s' hcfg⟩
    · cases h

/-! ### A run of pixels by columns and rows (20_memory.md R80) -/

/-- A cell of the canvas lies in a run that stays in its row exactly when it is in the run's row and columns. -/
theorem inRun_iff {w y y' x x' n : Nat} (hx : x < w) (hrun : x' + n ≤ w) :
    y' * w + x' ≤ y * w + x ∧ y * w + x < y' * w + x' + n ↔ y = y' ∧ x' ≤ x ∧ x < x' + n := by
  constructor
  · rintro ⟨hle, hlt⟩
    obtain rfl : y = y' := by
      rcases Nat.lt_trichotomy y y' with h | h | h
      · have := Nat.mul_le_mul_right w h
        rw [Nat.succ_mul] at this
        omega
      · exact h
      · have := Nat.mul_le_mul_right w h
        rw [Nat.succ_mul] at this
        omega
    omega
  · rintro ⟨rfl, hle, hlt⟩
    omega

/-- Every cell of the canvas after a run of pixels. -/
theorem canvas_putRun {r : Rld} {px : List Byte} (hrun : r.x.toNat + px.length ≤ r.width) {x : Nat} (hx : x < r.width)
    (y : Nat) :
    ({ r.sh with outBuf := store r.sh.outBuf r.pixelCell px } : Shell).outByte .rld (y * r.width + x) =
      if y = r.canvasRow ∧ r.x.toNat ≤ x ∧ x < r.x.toNat + px.length then px.getD (x - r.x.toNat) 0
      else r.sh.outByte .rld (y * r.width + x) := by
  rw [outByte_store, Rld.pixelCell]
  simp only [inRun_iff hx hrun]
  split
  · next h =>
    obtain ⟨rfl, -, -⟩ := h
    rw [Nat.add_sub_add_left]
  · rfl

/-! ### Mirrored units -/

section
variable {cfg : Config} {r r' : Rld}

/-- Mirrored units fetch the same command: they share the input, the cursor and the mode. -/
theorem mirrors_fetch (h : r.Mirrors r') : r'.fetch = r.fetch := by
  obtain ⟨-, -, hmode, hr', -⟩ := h
  have hwindow : r'.sh.window .rld 258 = r.sh.window .rld 258 := by rw [hr']; rfl
  rw [Rld.fetch, Rld.fetch, hmode, hwindow]

/-- A run written to a row and to the row that mirrors it leaves mirrored cells equal. -/
theorem canvas_putRun_mirrors (h : r.Mirrors r') {px : List Byte} (hin : r.inside px.length = true) {x y : Nat}
    (hx : x < r.width) (hy : y < r.height) :
    ({ r'.sh with outBuf := store r'.sh.outBuf r'.pixelCell px } : Shell).outByte .rld
        ((r.height - 1 - y) * r.width + x) =
      ({ r.sh with outBuf := store r.sh.outBuf r.pixelCell px } : Shell).outByte .rld (y * r.width + x) := by
  obtain ⟨hflip, hflip', -, hr', hcanvas⟩ := h
  obtain ⟨hrow, hrun⟩ := (inside_iff r px.length).mp hin
  have hwidth : r'.width = r.width := by rw [hr']; rfl
  have hcolumn : r'.x = r.x := by rw [hr']
  have hcanvasRow : r.canvasRow = r.y.toNat := if_neg (by simp [hflip])
  have hcanvasRow' : r'.canvasRow = r.height - 1 - r.y.toNat := by
    rw [Rld.canvasRow, if_pos hflip', hr']
    rfl
  have hrows : r.height - 1 - y = r.height - 1 - r.y.toNat ↔ y = r.y.toNat := by omega
  have hcells' := canvas_putRun (r := r') (px := px) (by rwa [hwidth, hcolumn]) (hwidth.symm ▸ hx) (r.height - 1 - y)
  rw [hwidth, hcolumn, hcanvasRow', hcanvas x y hx hy] at hcells'
  rw [hcells', canvas_putRun hrun hx, hcanvasRow]
  simp only [hrows]

/-- The same run of pixels on mirrored units: both fault, or both write, each to its row. -/
theorem putRun_mirrors (hl : r.legal cfg = true) (h : r.Mirrors r') (px : List Byte) (len : Nat) :
    ∃ q q', r.putRun cfg px len = .ok q ∧ r'.putRun cfg px len = .ok q' ∧ q.legal cfg = true ∧ q.Mirrors q' := by
  have ⟨hflip, hflip', hmode, hr', hcanvas⟩ := h
  obtain ⟨c, m, g, rfl⟩ : ∃ c m g, r' = { r with sh := { r.sh with cfg2 := c, outBuf := m, outGen := g } } :=
    ⟨_, _, _, hr'⟩
  obtain ⟨-, -, -, -, -, hsize⟩ := (rldLegal_iff cfg r).mp hl
  cases hin : r.inside px.length with
  | false =>
    exact ⟨_, _, (putRun_eq_ok ..).mpr (.inl ⟨hin, rfl⟩), (putRun_eq_ok ..).mpr (.inl ⟨hin, rfl⟩), hl, hflip, hflip',
      hmode, rfl, hcanvas⟩
  | true =>
    have hfit := (pixelCell_fits hin).trans hsize
    have hfit' := (pixelCell_fits (r := { r with sh := { r.sh with cfg2 := c, outBuf := m, outGen := g } }) hin).trans hsize
    refine ⟨_, _, (putRun_eq_ok ..).mpr (.inr ⟨hin, hfit, rfl⟩), (putRun_eq_ok ..).mpr (.inr ⟨hin, hfit', rfl⟩), hl,
      hflip, hflip', hmode, rfl, fun x y hx hy => canvas_putRun_mirrors h hin hx hy⟩

/-- The same update on mirrored units goes on in both and leaves them mirrored. -/
theorem rldOp_mirrors {op : Rld → Except Fault Rld} (hop : RldOp cfg op) (hl : r.legal cfg = true) (h : r.Mirrors r') :
    ∃ q q', op r = .ok q ∧ op r' = .ok q' ∧ q.legal cfg = true ∧ q.Mirrors q' := by
  cases hop with
  | run px len => exact putRun_mirrors hl h px len
  | _ =>
    obtain ⟨hflip, hflip', hmode, hr', hcanvas⟩ := h
    obtain ⟨c, m, g, rfl⟩ : ∃ c m g, r' = { r with sh := { r.sh with cfg2 := c, outBuf := m, outGen := g } } :=
      ⟨_, _, _, hr'⟩
    exact ⟨_, _, rfl, rfl, hl, hflip, hflip', hmode, rfl, hcanvas⟩

end

/-! ### Runs -/

/-- A turn of mirrored units goes on in both and leaves them mirrored. -/
theorem unitStep_mirrors {s s' : State} (hcfg : s'.cfg = s.cfg) (hl : s.rld.legal s.cfg = true)
    (h : s.rld.Mirrors s'.rld) :
    ∃ q q', unitStep .rld s = .next { s with rld := q } ∧ unitStep .rld s' = .next { s' with rld := q' } ∧
      q.legal s.cfg = true ∧ q.Mirrors q' := by
  have hstate : s'.rld.sh.state = s.rld.sh.state := by
    obtain ⟨-, -, -, hr', -⟩ := h
    rw [hr']
  by_cases hb : s.rld.sh.state = .busy
  · obtain ⟨op, hop, hs, hs'⟩ := rldStep_op hcfg (mirrors_fetch h)
    obtain ⟨q, q', hq, hq', hlegal, hmirrors⟩ := rldOp_mirrors hop hl h
    rw [unitStep_rld s hb, unitStep_rld s' (hstate.trans hb), hs, hs', hq, hq']
    exact ⟨q, q', rfl, rfl, hlegal, hmirrors⟩
  · exact ⟨s.rld, s'.rld, unitStep_idle .rld s hb, unitStep_idle .rld s' (hstate ▸ hb), hl, h⟩

theorem runTurns_mirrors (n : Nat) : ∀ {s s' : State}, s'.cfg = s.cfg → s.rld.legal s.cfg = true →
    s.rld.Mirrors s'.rld →
    ∃ t t', runTurns (List.replicate n .rld) s = .next t ∧ runTurns (List.replicate n .rld) s' = .next t' ∧
      t.rld.Mirrors t'.rld := by
  induction n with
  | zero => exact fun {s s'} _ _ h => ⟨s, s', rfl, rfl, h⟩
  | succ n ih =>
    intro s s' hcfg hl h
    obtain ⟨q, q', hs, hs', hlegal, hmirrors⟩ := unitStep_mirrors hcfg hl h
    rw [List.replicate_succ, runTurns, runTurns, hs, hs']
    exact ih (s := { s with rld := q }) (s' := { s' with rld := q' }) hcfg hlegal hmirrors

/-- Settles O44, by induction on the turns: a legal configuration and mirrored units are kept by every turn. -/
theorem flipReversesTheRows : Obligations.FlipReversesTheRows := by
  unfold Obligations.FlipReversesTheRows
  intro s s' n _ hcfg hr h _
  exact runTurns_mirrors n hcfg.symm hr.legal h

end Sys2Proof.Proofs
end

section
/-! PROOFS. PFE's START: the colour types and their legal depths written out, and the run it begins (40_png_filter.md R141, R143,
R159; 44_host_commands.md R292; 60_exceptions.md R312). -/

namespace Sys2Proof.Proofs

open Sys2Proof.Machine Sys2Proof.Laws

/-! ### The colour types (R141) -/

/-- The table of legal depths, a row for each group of colour types. -/
theorem mem_legalDepths_iff (t d : Nat) :
    d ∈ legalDepths t ↔
      (t = 0 ∧ d ∈ [1, 2, 4, 8, 16]) ∨ (t = 3 ∧ d ∈ [1, 2, 4, 8]) ∨ (t ∈ [2, 4, 6] ∧ d ∈ [8, 16]) := by
  unfold legalDepths
  split_ifs with h0 h2 h3 h4 h6
  case neg =>
    have hnone : t ∉ [2, 4, 6] := by simp [h2, h4, h6]
    simp [h0, h3, hnone]
  all_goals simp [*]

/-- The channels of the colour types with more than one; a number that is no colour type has no legal depth. -/
theorem channels_of_legalDepths {t d : Nat} (h : d ∈ legalDepths t) :
    channels t = if t = 2 then 3 else if t = 4 then 2 else if t = 6 then 4 else 1 := by
  have htype : t ∈ [0, 2, 3, 4, 6] := by
    rcases (mem_legalDepths_iff t d).mp h with ⟨rfl, -⟩ | ⟨rfl, -⟩ | ⟨ht, -⟩
    · decide
    · decide
    · exact (by decide : [2, 4, 6] ⊆ [0, 2, 3, 4, 6]) ht
  exact (by decide : ∀ t ∈ [0, 2, 3, 4, 6], channels t = if t = 2 then 3 else if t = 4 then 2 else if t = 6 then 4 else 1) t
    htype

/-- `ROWBYTES` from the channels (R142, R143). -/
theorem rowBytes_of_channels {p : Pfe} {ch : Nat} (h : channels p.colorType = ch) :
    p.rowBytes = (p.width * (ch * p.depth) + 7) / 8 := by
  rw [Pfe.rowBytes, Pfe.pixBits, h]
  rfl

/-! ### START -/

theorem exec_startPfe (s : State) : exec (.cmdStart .pfe) s = .next { s with pfe := s.pfe.start s.cfg } := rfl

section
variable {cfg : Config} {p : Pfe}

theorem pfeStart_ignored (h : p.sh.state ≠ .idle) : p.start cfg = p := if_neg h

/-- What START clears first does not touch the configuration. -/
theorem pfeLegal_startClear : Pfe.legal cfg { p with sh := p.sh.startClear } = p.legal cfg := rfl

theorem pfeStart_illegal (hi : p.sh.state = .idle) (hl : ¬p.legal cfg = true) :
    p.start cfg = { p with sh := p.sh.startClear.raise .cfg 0 } := by
  rw [Pfe.start, if_pos hi]
  exact if_neg (pfeLegal_startClear ▸ hl)

theorem pfeStart_legal (hi : p.sh.state = .idle) (hl : p.legal cfg = true) :
    p.start cfg = Pfe.init { p with sh := p.sh.startClear } := by
  rw [Pfe.start, if_pos hi]
  exact if_pos (pfeLegal_startClear ▸ hl)

end

/-- PFE at the start of a run: the canvas is cleared, then the first pass entered (R159). -/
theorem pfeInit_enters (p : Pfe) :
    ∃ g, p.passes[0]? = some g ∧ p.init = (startCanvas p).enterPass 0 g ∧
      (∀ a, p.init.sh.outByte .pfe a = if a < p.rowBytes * p.height then 0 else p.sh.outByte .pfe a) ∧
      ∀ k, p.init.priorAt k = if k < p.passBytes g then 0 else p.priorAt k := by
  obtain ⟨g, hg, hhead, -⟩ := passes_head p
  have hinit : p.init = (startCanvas p).enterPass 0 g := by rw [pfeInit_eq, hhead]
  rw [hinit]
  exact ⟨g, hg, rfl, outByte_clearCanvas .pfe p.sh _, enterPass_priorAt (startCanvas p) 0 g⟩

/-- Settles O45: START's three cases; a legal configuration fixes the channels, so the canvas is that of the statement. -/
theorem startPfe : Obligations.StartPfe := by
  unfold Obligations.StartPfe
  intro s _
  have hlegal := pfeLegal_iff s.cfg s.pfe
  refine ⟨fun hb => ?ignored, fun hi hl => ?illegal, fun hi hl => ?legal⟩
  case ignored => rw [exec_startPfe, pfeStart_ignored hb]
  case illegal =>
    rw [exec_startPfe, pfeStart_illegal hi fun h => hl ?_]
    · rfl
    · obtain ⟨hw1, hw, hh1, hh, hdepth, hin, hsize⟩ := hlegal.mp h
      rw [rowBytes_of_channels (channels_of_legalDepths hdepth)] at hsize
      exact ⟨hin, hw1, hw, hh1, hh, (mem_legalDepths_iff _ _).mp hdepth, hsize⟩
  case legal =>
    obtain ⟨hin, hw1, hw, hh1, hh, hformat, hsize⟩ := hl
    have hdepth := (mem_legalDepths_iff _ _).mpr hformat
    have hrow := rowBytes_of_channels (channels_of_legalDepths hdepth)
    rw [exec_startPfe, pfeStart_legal hi (hlegal.mpr ⟨hw1, hw, hh1, hh, hdepth, hin, hrow ▸ hsize⟩), ← hrow]
    obtain ⟨g, hg, hinit, hout, hprior⟩ := pfeInit_enters { s.pfe with sh := s.pfe.sh.startClear }
    exact ⟨_, g, rfl, hg, by rw [hinit]; rfl, hout, hprior⟩

end Sys2Proof.Proofs
end

section
/-! PROOFS. The host's accesses: CLEAR and the reserved commands, registers by number, the buffers (44_host_commands.md R290,
R291, R293 to R295; 60_exceptions.md R322, R323). -/

namespace Sys2Proof.Proofs

open Sys2Proof.Machine Sys2Proof.Laws

theorem busy_eq_false_iff (sh : Shell) : sh.busy = false ↔ sh.state ≠ .busy := by
  rw [← Bool.not_eq_true, busy_iff]

/-! ### Buffers (R295) -/

section
variable {sh : Shell} {maxIn a : Nat}

/-- A byte of `IN` after a write inside it. -/
theorem inByte_writeIn (h : sh.state ≠ .busy) (ha : a < maxIn) (u : UnitId) (v : Byte) (b : Nat) :
    (sh.writeIn maxIn a v).inByte u b = if b = a then v else sh.inByte u b := by
  rw [Shell.writeIn, if_neg (mt (busy_iff sh).mp h), if_pos ha, inByte_eq]
  split
  · next hb =>
    subst hb
    exact cell_store_inside _ _ _ b [v] 0 Nat.zero_lt_one
  · next hb => exact cell_store_outside _ _ _ _ _ _ (by rw [List.length_singleton]; omega)

theorem writeIn_frame (sh : Shell) (maxIn a : Nat) (v : Byte) :
    sh.writeIn maxIn a v = { sh with inBuf := (sh.writeIn maxIn a v).inBuf } := by
  unfold Shell.writeIn
  split_ifs <;> rfl

theorem writeIn_ignored (h : sh.state = .busy ∨ maxIn ≤ a) (v : Byte) : sh.writeIn maxIn a v = sh := by
  rcases h with hb | ha
  · exact if_pos ((busy_iff sh).mpr hb)
  · rw [Shell.writeIn, if_neg (Nat.not_lt.mpr ha), ite_self]

/-- What the host sees in `OUT` of a unit that is not in FAULT (R322). -/
theorem hostOut_of_not_fault (h : sh.state ≠ .fault) (u : UnitId) (a : Nat) : sh.hostOut u a = sh.outByte u a := if_neg h

end

section
variable {s : State} {u : UnitId} {a : Nat}

theorem readIn_inside (h : (s.shell u).state ≠ .busy) (ha : a < s.cfg.maxIn) :
    s.readIn u a = s.putByte ((s.shell u).inByte u a) := if_pos ⟨(busy_eq_false_iff _).mpr h, ha⟩

theorem readOut_inside (h : (s.shell u).state ≠ .busy) (ha : a < s.cfg.maxOut) :
    s.readOut u a = s.putByte ((s.shell u).hostOut u a) := if_pos ⟨(busy_eq_false_iff _).mpr h, ha⟩

end

/-- Settles O52: a clause for each access, from what `writeIn`, `readIn` and `readOut` do inside, outside and while BUSY. -/
theorem bufferAccesses : Obligations.BufferAccesses := by
  unfold Obligations.BufferAccesses
  intro s u a v
  refine ⟨fun hb ha => ?writes, fun h => ?ignored, hostAct_writeOut s u a v, fun hb ha => ?readsIn, fun h ha => ?readsOut,
    ?readInFrame, ?readOutFrame⟩
  case writes =>
    refine ⟨_, hostAct_writeIn s u a v, ?_, ?_⟩
    · rw [shell_setShell_self, ← writeIn_frame]
    · rw [shell_setShell_self]
      exact inByte_writeIn hb ha u v
  case ignored => rw [hostAct_writeIn, writeIn_ignored h, setShell_shell]
  case readsIn =>
    rw [hostAct_readIn, readIn_inside hb ha]
    rfl
  case readsOut =>
    have hb : (s.shell u).state ≠ .busy := by rcases h with h | h <;> simp [h]
    have hf : (s.shell u).state ≠ .fault := by rcases h with h | h <;> simp [h]
    rw [hostAct_readOut, readOut_inside hb ha, hostOut_of_not_fault hf]
    rfl
  case readInFrame =>
    obtain ⟨b, n, h⟩ := readIn_frame s u a
    exact ⟨_, (hostAct_readIn s u a).trans (congrArg _ h), rfl⟩
  case readOutFrame =>
    obtain ⟨b, n, h⟩ := readOut_frame s u a
    exact ⟨_, (hostAct_readOut s u a).trans (congrArg _ h), rfl⟩

/-! ### CLEAR and the reserved commands (R293, R294, R323) -/

theorem clear_of_busy {sh : Shell} (h : sh.state = .busy) : sh.clear = sh := by
  rw [Shell.clear, h]

/-- CLEAR of a unit that is not BUSY: the status fields are 0, and only the model's account of `OUT` may change besides. -/
theorem clear_of_not_busy {sh : Shell} (h : sh.state ≠ .busy) :
    sh.clear = { sh with
      state := .idle
      err := .none
      flags := .clear
      errPos := 0
      outBuf := sh.clear.outBuf
      outGen := sh.clear.outGen } := by
  unfold Shell.clear
  split
  · next hb => exact absurd hb h
  all_goals rfl

/-- CLEAR leaves in `OUT` what the host saw there before (log 1). -/
theorem hostOut_clear (u : UnitId) (sh : Shell) (a : Nat) : sh.clear.hostOut u a = sh.hostOut u a := by
  unfold Shell.clear
  split
  · rfl
  · next hf =>
    rw [Shell.hostOut, Shell.hostOut, if_pos hf]
    rfl
  all_goals
    next hs =>
      rw [hostOut_of_not_fault (by simp), hostOut_of_not_fault (by simp [hs])]
      rfl

theorem irq_of_idle {sh : Shell} (h : sh.state = .idle) : sh.irq = false := by
  simp [Shell.irq, h]

theorem exec_cmdClear (s : State) (u : UnitId) : exec (.cmdClear u) s = .next (s.setShell u (s.shell u).clear) := rfl

/-- Settles O49: CLEAR by the unit's `STATE`, and the two `CTRL` values that are commands. -/
theorem clearAndReserved : Obligations.ClearAndReserved := by
  unfold Obligations.ClearAndReserved
  intro s u
  refine ⟨fun hb => ?ignored, fun hb => ?clears, fun v h1 h2 => ?reserved⟩
  case ignored => rw [exec_cmdClear, clear_of_busy hb, setShell_shell]
  case clears =>
    have hclear := clear_of_not_busy hb
    refine ⟨_, exec_cmdClear s u, ?_⟩
    rw [shell_setShell_self]
    exact ⟨rfl, hclear, hostOut_clear u _, irq_of_idle (congrArg Shell.state hclear)⟩
  case reserved => rw [hostAct_ctrl, if_neg h1, if_neg h2]

/-! ### Register reads (R290) -/

/-- Masking with `m` keeps a word that has no bit outside `m`. -/
theorem and_eq_self_of_and_not_eq_zero {x m : Word} (h : x &&& ~~~m = 0) : x &&& m = x := by
  calc x &&& m = x &&& m ||| x &&& ~~~m := by rw [h]; exact BitVec.or_zero.symm
    _ = x := by rw [← BitVec.and_or_distrib_left, BitVec.or_not_self, BitVec.and_allOnes]

/-- Each register reads as it is stored, for it stores no reserved bit (R29 to R33). -/
theorem readReg_of_good {cfg : Config} {u : UnitId} {sh : Shell} (h : sh.Good cfg u) (i : BitVec 4) :
    sh.readReg u i =
      if i = 1 then sh.status else if i = 2 then (if sh.ie then 1 else 0) else if i = 3 then sh.inLen
      else if i = 4 then sh.inPos else if i = 5 then sh.outLen else if i = 6 then sh.errPos
      else if i = 8 then sh.cfg0 else if i = 9 then sh.cfg1 else if i = 10 then sh.cfg2 else 0 := by
  have hie : (BitVec.ofBool sh.ie).setWidth 32 = if sh.ie then (1 : Word) else 0 := by cases sh.ie <;> rfl
  unfold Shell.readReg
  rw [hie]
  congr 6
  split_ifs with h8 h9 h10
  · rw [h8, and_eq_self_of_and_not_eq_zero h.reserved0]
  · rw [h9, and_eq_self_of_and_not_eq_zero h.reserved1]
  · rw [h10, and_eq_self_of_and_not_eq_zero h.reserved2]
  · rfl

/-- A BUSY unit has no error and no flag to show (R23, R47). -/
theorem status_of_busy {cfg : Config} {u : UnitId} {sh : Shell} (h : sh.Good cfg u) (hb : sh.state = .busy) :
    sh.status = 1 := by
  have herr : sh.err = .none := h.errOnlyInFault.mpr (by simp [hb])
  have hflags : sh.flags = .clear := h.flagsOnlyInDone (by simp [hb])
  rw [Shell.status, hb, herr, hflags]
  decide

section
variable {s : State} {u : UnitId} {i : BitVec 4}

/-- A register that shows no progress of a run reads as what it holds. -/
theorem readReg_busData (h : (s.shell u).state ≠ .busy ∨ (i ≠ 4 ∧ i ≠ 5)) :
    (s.readReg u i).busData = (s.shell u).readReg u i := by
  have hbound : progressBound s.cfg (s.shell u) i = none := by
    unfold progressBound
    rcases h with hb | ⟨h4, h5⟩
    · rw [if_neg (mt (busy_iff _).mp hb)]
    · rw [if_neg h4, if_neg h5, ite_self]
  rw [State.readReg, hbound]

/-- A progress register of a BUSY unit reads as some value up to its bound. -/
theorem readReg_busData_le {n : Nat} (h : progressBound s.cfg (s.shell u) i = some n) :
    (s.readReg u i).busData.toNat ≤ n := by
  rw [State.readReg, h]
  calc (word (freeProgress s.fresh % (n + 1))).toNat ≤ freeProgress s.fresh % (n + 1) := by
        rw [word_toNat]; exact Nat.mod_le _ _
    _ ≤ n := Nat.le_of_lt_succ (Nat.mod_lt _ n.succ_pos)

end

/-- Settles O50: the registers of a good state by `readReg_of_good`, the progress registers of a BUSY unit by their bounds. -/
theorem registerReads : Obligations.RegisterReads := by
  unfold Obligations.RegisterReads
  intro s u i hgood
  have hshell := good_shell hgood u
  refine ⟨s.readReg u i, hostAct_read s u i, ?frame, fun h => ?value, fun hb hi => ?inPos, fun hb hi => ?outLen,
    fun hb hi => ?status⟩
  case frame =>
    obtain ⟨b, n, h⟩ := readReg_frame s u i
    rw [h]
  case value => exact (readReg_busData h).trans (readReg_of_good hshell i)
  case inPos => exact readReg_busData_le (by subst hi; exact if_pos ((busy_iff _).mpr hb))
  case outLen => exact readReg_busData_le (by subst hi; exact if_pos ((busy_iff _).mpr hb))
  case status =>
    subst hi
    exact (readReg_busData (.inr (by decide))).trans (status_of_busy hshell hb)

/-! ### Register writes (R291) -/

section
variable {u : UnitId} {sh : Shell} {i : BitVec 4} {v : Word}

theorem writeReg_ie : sh.writeReg u 2 v = { sh with ie := v.getLsbD 0 } := rfl

theorem writeReg_of_busy (hb : sh.state = .busy) (hi : i ≠ 2) : sh.writeReg u i v = sh := by
  rw [Shell.writeReg, if_neg hi, if_pos ((busy_iff sh).mpr hb)]

/-- A register that is read-only or reserved for every unit ignores writes. -/
theorem writeReg_readOnly (h2 : i ≠ 2) (h3 : i ≠ 3) (h8 : i ≠ 8) (h9 : i ≠ 9) (h10 : i ≠ 10) :
    sh.writeReg u i v = sh := by
  rw [Shell.writeReg, if_neg h2, if_neg h3, if_neg h8, if_neg h9, if_neg h10, ite_self]

/-- A unit that is not BUSY stores its run's registers, those of the configuration without their reserved bits. -/
theorem writeReg_of_not_busy (hb : sh.state ≠ .busy) :
    sh.writeReg u 3 v = { sh with inLen := v } ∧ sh.writeReg u 8 v = { sh with cfg0 := v &&& cfgMask u 8 } ∧
      sh.writeReg u 9 v = { sh with cfg1 := v &&& cfgMask u 9 } ∧
      sh.writeReg u 10 v = { sh with cfg2 := v &&& cfgMask u 10 } := by
  have hbusy : ¬sh.busy = true := mt (busy_iff sh).mp hb
  exact ⟨if_neg hbusy, if_neg hbusy, if_neg hbusy, if_neg hbusy⟩

end

/-- Settles O51: `writeReg` by register number; the defined bits are those of `cfgMask`. -/
theorem registerWrites : Obligations.RegisterWrites := by
  unfold Obligations.RegisterWrites
  intro s u i v hi0
  refine ⟨_, hostAct_write s u i v hi0, ?ien, fun hb hi => ?busy, fun hb hi => ?inLen, fun hb hi => ?cfg0, fun hb hi => ?cfg1,
    fun hb hi => ?cfg2, fun hi => ?ignored⟩
  case ien =>
    rintro rfl
    rw [writeReg_ie]
  case busy => rw [writeReg_of_busy hb hi, setShell_shell]
  case ignored =>
    rw [writeReg_readOnly, setShell_shell]
    all_goals bv_omega
  all_goals
    obtain ⟨h3, h8, h9, h10⟩ := writeReg_of_not_busy (u := u) (v := v) hb
    subst hi
  case inLen => rw [h3]
  case cfg0 => rw [h8]; cases u <;> rfl
  case cfg1 => rw [h9]; cases u <;> rfl
  case cfg2 => rw [h10]; cases u <;> rfl

end Sys2Proof.Proofs
end

section
/-! PROOFS. The fields of STATUS and the interrupt output (10_state.md R23; 60_exceptions.md R325). -/

namespace Sys2Proof.Proofs

open Sys2Proof.Machine Sys2Proof.Laws

section
variable (sh : Shell)

/-- The layout of `STATUS`, bit by bit (10_state.md R23). -/
theorem status_getLsbD (i : Nat) :
    sh.status.getLsbD i =
      if i < 2 then sh.state.bits.getLsbD i
      else if i < 4 then false
      else if i < 8 then sh.err.bits.getLsbD (i - 4)
      else if i = 8 then sh.flags.inRem
      else if i = 9 then sh.flags.short
      else if i = 10 then sh.flags.under
      else false := by
  unfold Shell.status
  simp only [BitVec.getLsbD_append, BitVec.getLsbD_ofBool, BitVec.getLsbD_zero]
  grind

theorem status_state : sh.status.extractLsb' 0 2 = sh.state.bits := by
  refine BitVec.eq_of_getLsbD_eq fun i hi => ?_
  rw [BitVec.getLsbD_extractLsb', status_getLsbD, Nat.zero_add, if_pos hi, decide_eq_true hi, Bool.true_and]

theorem status_err : sh.status.extractLsb' 4 4 = sh.err.bits := by
  refine BitVec.eq_of_getLsbD_eq fun i hi => ?_
  rw [BitVec.getLsbD_extractLsb', status_getLsbD, if_neg (by omega), if_neg (by omega), if_pos (by omega),
    Nat.add_sub_cancel_left, decide_eq_true hi, Bool.true_and]

/-- The reserved bits of `STATUS` are 0. -/
theorem status_getLsbD_reserved {i : Nat} (h : 2 ≤ i ∧ i < 4 ∨ 11 ≤ i) : sh.status.getLsbD i = false := by
  rw [status_getLsbD, if_neg (by omega)]
  rcases h with ⟨-, h4⟩ | h11
  · rw [if_pos h4]
  · rw [if_neg (by omega), if_neg (by omega), if_neg (by omega), if_neg (by omega), if_neg (by omega)]

theorem status_reserved_low : sh.status.extractLsb' 2 2 = 0 := by
  refine BitVec.eq_of_getLsbD_eq fun i hi => ?_
  rw [BitVec.getLsbD_extractLsb', status_getLsbD_reserved sh (by omega), Bool.and_false]
  exact BitVec.getLsbD_zero.symm

theorem status_reserved_high : sh.status.extractLsb' 11 21 = 0 := by
  refine BitVec.eq_of_getLsbD_eq fun i _ => ?_
  rw [BitVec.getLsbD_extractLsb', status_getLsbD_reserved sh (by omega), Bool.and_false]
  exact BitVec.getLsbD_zero.symm

theorem irq_iff : sh.irq = true ↔ sh.ie = true ∧ (sh.state = .done ∨ sh.state = .fault) := by
  simp [Shell.irq]

end

/-- DONE and FAULT by their bits in `STATUS` (R23). -/
theorem bits_ended_iff (st : RunState) : st.bits.toNat = 2 ∨ st.bits.toNat = 3 ↔ st = .done ∨ st = .fault := by
  cases st <;> simp [RunState.bits]

/-- Settles O53: the layout bit by bit, and the interrupt by STATE. -/
theorem statusAndInterrupt : Obligations.StatusAndInterrupt := by
  unfold Obligations.StatusAndInterrupt
  intro sh
  dsimp only
  rw [status_state, status_err, bits_ended_iff]
  refine ⟨?state, ?err, status_getLsbD sh 8, status_getLsbD sh 9, status_getLsbD sh 10, status_reserved_low sh,
    status_reserved_high sh, irq_iff sh⟩
  case state => cases sh.state <;> rfl
  case err => cases sh.err <;> rfl

end Sys2Proof.Proofs
end

section
/-! PROOFS. A unit's turn depends on the parameters and on that unit alone, so turns of different units commute
(60_exceptions.md R336; 20_memory.md R85). -/

namespace Sys2Proof.Proofs

open Sys2Proof.Machine Sys2Proof.Laws

/-! ### One unit taken from another state -/

/-- The state with unit `u` as it is in `t`. -/
def withUnitOf (s : State) (u : UnitId) (t : State) : State :=
  match u with
  | .pfe => { s with pfe := t.pfe }
  | .lzd => { s with lzd := t.lzd }
  | .g4e => { s with g4e := t.g4e }
  | .rld => { s with rld := t.rld }

theorem withUnitOf_cfg (s : State) (u : UnitId) (t : State) : (withUnitOf s u t).cfg = s.cfg := by cases u <;> rfl

theorem shell_withUnitOf (s : State) (u : UnitId) (t : State) : (withUnitOf s u t).shell u = t.shell u := by
  cases u <;> rfl

/-- Putting one unit in place leaves every other as it was. -/
theorem withUnitOf_other (s t : State) {u v : UnitId} (h : u ≠ v) :
    withUnitOf (withUnitOf s u t) v s = withUnitOf s u t := by
  cases u <;> cases v <;> simp [withUnitOf] at h ⊢

theorem withUnitOf_comm (s t t' : State) {u v : UnitId} (h : u ≠ v) :
    withUnitOf (withUnitOf s u t) v t' = withUnitOf (withUnitOf s v t') u t := by
  cases u <;> cases v <;> simp [withUnitOf] at h ⊢

/-- A unit's turn replaces that unit and nothing else (R336). -/
theorem unitStep_frame {s t : State} {u : UnitId} (h : unitStep u s = .next t) : t = withUnitOf s u t := by
  cases unitStep_ownTurn h <;> rfl

/-! ### Elements as functions of the parameters and the unit -/

theorem exec_classify_eq (x : LzwCx) (c : BitVec 12) :
    ∃ op : Config → Lzd → Except Fault Lzd,
      ∀ s, exec (classify x c) s = settle (op s.cfg s.lzd) fun l => { s with lzd := l } := by
  unfold classify
  split_ifs
  · exact ⟨fun _ l => .ok l.clearTable, fun _ => rfl⟩
  · exact ⟨fun _ l => .ok (l.finish false), fun _ => rfl⟩
  · exact ⟨fun cfg l => l.ref cfg c, fun _ => rfl⟩
  · exact ⟨fun cfg l => l.kwk cfg, fun _ => rfl⟩
  · exact ⟨fun _ l => .ok { l with sh := l.sh.raise .lzwCode l.sh.inPos }, fun _ => rfl⟩
  · exact ⟨fun cfg l => l.lit cfg c, fun _ => rfl⟩
  · exact ⟨fun _ l => .ok { l with sh := l.sh.raise .lzwCode l.sh.inPos }, fun _ => rfl⟩

theorem exec_mode_eq (g : G4e) :
    ∃ op : Config → G4e → G4e, ∀ s, exec g.mode s = .next { s with g4e := op s.cfg s.g4e } := by
  unfold G4e.mode
  split
  · exact ⟨fun cfg g => g.passMode cfg, fun _ => rfl⟩
  · cases hv : verticalOf g.diff with
    | none => exact ⟨fun cfg g => g.horizontal cfg, fun _ => rfl⟩
    | some i =>
      obtain ⟨c, hc⟩ := exec_verticalOf hv
      exact ⟨fun cfg g => g.vertical cfg (c cfg.modeTab), hc⟩

/-- A run word that the tables do not have stops the machine. -/
theorem drain_noSuchWord (s : State) {w : RunWord} (ws : List RunWord) (h : runCode s.cfg w = none) :
    drain (w :: ws) s = .fault .noSuchWord := by
  obtain ⟨i, hi, hexec⟩ := exec_runWord w
  simp [drain, hi, hexec, emitRun, G4e.packRun, h]

/-! ### What a turn answers depends on the parameters and the unit -/

/-- Two actions give the same answer of a unit, each put in place in its own state. -/
def AnswersAs {α : Type} (put put' : α → State) (r r' : Result) : Prop :=
  ∃ a : Except Fault α, r = settle a put ∧ r' = settle a put'

section
variable {s s' : State} (hcfg : s'.cfg = s.cfg)
include hcfg

theorem pfeStep_answers (hp : s'.pfe = s.pfe) :
    AnswersAs (fun p => { s with pfe := p }) (fun p => { s' with pfe := p }) (pfeStep s) (pfeStep s') := by
  cases h : s.pfe.fetch with
  | error e =>
    rw [pfeStep_faults s e h, pfeStep_faults s' e (hp ▸ h), hp]
    exact ⟨.ok _, rfl, rfl⟩
  | ok i =>
    obtain ⟨f, raw, rfl, -, -⟩ := pfeFetch_ok h
    rw [pfeStep_runs s _ h, pfeStep_runs s' _ (hp ▸ h), exec_filter, exec_filter, runScanline, runScanline, hcfg, hp]
    exact ⟨_, rfl, rfl⟩

theorem rldStep_answers (hr : s'.rld = s.rld) :
    AnswersAs (fun r => { s with rld := r }) (fun r => { s' with rld := r }) (rldStep s) (rldStep s') := by
  obtain ⟨op, -, hs, hs'⟩ := rldStep_op hcfg (congrArg Rld.fetch hr)
  exact ⟨op s.rld, hs, hr ▸ hs'⟩

theorem lzdStep_answers (hl : s'.lzd = s.lzd) :
    AnswersAs (fun l => { s with lzd := l }) (fun l => { s' with lzd := l }) (lzdStep s) (lzdStep s') := by
  by_cases hout : s.lzd.outMax ≤ s.lzd.sh.outLen.toNat
  · rw [lzdStep_full s hout, lzdStep_full s' (hl ▸ hout), hl]
    exact ⟨.ok _, rfl, rfl⟩
  · have hout := Nat.not_le.mp hout
    rcases hf : s.lzd.fill 2 with ⟨l, _ | _⟩
    · rw [lzdStep_exhausted s l hout hf, lzdStep_exhausted s' l (hl ▸ hout) (hl ▸ hf)]
      exact ⟨.ok _, rfl, rfl⟩
    · obtain ⟨op, hop⟩ := exec_classify_eq l.take.2.cx l.take.1
      rw [lzdStep_runs s l hout hf, lzdStep_runs s' l (hl ▸ hout) (hl ▸ hf), hop, hop]
      dsimp only
      rw [hcfg]
      exact ⟨_, rfl, rfl⟩

theorem drain_answers : ∀ (ws : List RunWord) (g : G4e),
    AnswersAs (fun g => { s with g4e := g }) (fun g => { s' with g4e := g }) (drain ws { s with g4e := g })
      (drain ws { s' with g4e := g }) := by
  intro ws
  induction ws with
  | nil => exact fun g => ⟨.ok g, rfl, rfl⟩
  | cons w ws ih =>
    intro g
    cases hc : runCode s.cfg w with
    | none => exact ⟨.error .noSuchWord, drain_noSuchWord _ ws hc, drain_noSuchWord _ ws (hcfg ▸ hc)⟩
    | some c =>
      obtain ⟨i, hi, hexec⟩ := exec_runWord w
      have hs := (hexec { s with g4e := { g with pend := ws } }).trans (emitRun_eq w _ c hc)
      have hs' := (hexec { s' with g4e := { g with pend := ws } }).trans (emitRun_eq w _ c (hcfg ▸ hc))
      rw [drain_cons { s with g4e := g } w ws i _ hi hs, drain_cons { s' with g4e := g } w ws i _ hi hs']
      dsimp only
      rw [show G4e.putbits s'.cfg = G4e.putbits s.cfg by rw [hcfg]]
      split
      · exact ih _
      · exact ⟨.ok _, rfl, rfl⟩

theorem runMode_answers (hg : s'.g4e = s.g4e) :
    AnswersAs (fun g => { s with g4e := g }) (fun g => { s' with g4e := g }) (runMode s.g4e.mode s)
      (runMode s.g4e.mode s') := by
  obtain ⟨op, hop⟩ := exec_mode_eq s.g4e
  rw [runMode_next s _ _ (hop s), runMode_next s' _ _ (hop s')]
  dsimp only
  rw [show op s'.cfg s'.g4e = op s.cfg s.g4e by rw [hcfg, hg]]
  split
  · exact drain_answers hcfg _ _
  · exact ⟨.ok _, rfl, rfl⟩

theorem g4eStep_answers (hg : s'.g4e = s.g4e) :
    AnswersAs (fun g => { s with g4e := g }) (fun g => { s' with g4e := g }) (g4eStep s) (g4eStep s') := by
  have hpack := drain_answers hcfg s.g4e.pend s.g4e
  have hmode := runMode_answers hcfg hg
  unfold g4eStep
  rw [hg]
  split_ifs
  · rw [show ({ s' with g4e := s.g4e } : State) = s' by rw [← hg]] at hpack
    exact hpack
  · exact hmode
  · exact ⟨.ok (s.g4e.endOfBlock s.cfg), rfl, by rw [← hcfg, ← hg]; rfl⟩
  · rw [hcfg]
    exact ⟨_, rfl, rfl⟩
  · exact ⟨.error .noSuchRow, rfl, rfl⟩

end

/-- The same answer puts the same unit in place. -/
theorem next_of_answersAs {α : Type} {put put' : α → State} {r r' : Result} {s' t : State} {u : UnitId}
    (h : AnswersAs put put' r r') (hput : ∀ a, put' a = withUnitOf s' u (put a)) (hr : r = .next t) :
    r' = .next (withUnitOf s' u t) := by
  obtain ⟨a, rfl, rfl⟩ := h
  obtain ⟨b, rfl, rfl⟩ := (settle_eq_next _ _ _).mp hr
  rw [settle_ok, hput]

/-- A unit's turn gives the same unit in every state with the same parameters that has the unit as it is. -/
theorem unitStep_elsewhere {s s' t : State} {u : UnitId} (hcfg : s'.cfg = s.cfg) (hu : withUnitOf s' u s = s')
    (h : unitStep u s = .next t) : unitStep u s' = .next (withUnitOf s' u t) := by
  have hshell : s'.shell u = s.shell u := by rw [← hu, shell_withUnitOf]
  by_cases hb : (s.shell u).state = .busy
  · have hb' : (s'.shell u).state = .busy := hshell ▸ hb
    cases u with
    | pfe =>
      rw [unitStep_pfe s hb] at h
      rw [unitStep_pfe s' hb']
      exact next_of_answersAs (pfeStep_answers hcfg (by rw [← hu]; rfl)) (fun _ => rfl) h
    | lzd =>
      rw [unitStep_lzd s hb] at h
      rw [unitStep_lzd s' hb']
      exact next_of_answersAs (lzdStep_answers hcfg (by rw [← hu]; rfl)) (fun _ => rfl) h
    | g4e =>
      rw [unitStep_g4e s hb] at h
      rw [unitStep_g4e s' hb']
      exact next_of_answersAs (g4eStep_answers hcfg (by rw [← hu]; rfl)) (fun _ => rfl) h
    | rld =>
      rw [unitStep_rld s hb] at h
      rw [unitStep_rld s' hb']
      exact next_of_answersAs (rldStep_answers hcfg (by rw [← hu]; rfl)) (fun _ => rfl) h
  · obtain rfl := Host.Outcome.next.inj ((unitStep_idle u s hb).symm.trans h)
    rw [unitStep_idle u s' (hshell ▸ hb), hu]

/-! ### Interleavings -/

/-- Turns of two different units commute (R336). -/
theorem unitStep_comm {s s1 s2 : State} {u v : UnitId} (huv : u ≠ v) (h1 : unitStep u s = .next s1)
    (h2 : unitStep v s = .next s2) : ∃ t, unitStep v s1 = .next t ∧ unitStep u s2 = .next t := by
  have hs1 := unitStep_frame h1
  have hs2 := unitStep_frame h2
  refine ⟨withUnitOf s1 v s2, unitStep_elsewhere ?_ ?_ h2, ?_⟩
  · rw [hs1, withUnitOf_cfg]
  · rw [hs1, withUnitOf_other s s1 huv]
  · have hturn : unitStep u s2 = .next (withUnitOf s2 u s1) := by
      refine unitStep_elsewhere ?_ ?_ h1
      · rw [hs2, withUnitOf_cfg]
      · rw [hs2, withUnitOf_other s s2 huv.symm]
    calc unitStep u s2 = .next (withUnitOf s2 u s1) := hturn
      _ = .next (withUnitOf (withUnitOf s v s2) u s1) := by rw [← hs2]
      _ = .next (withUnitOf (withUnitOf s u s1) v s2) := by rw [withUnitOf_comm s s1 s2 huv]
      _ = .next (withUnitOf s1 v s2) := by rw [← hs1]

theorem runTurns_cons {s t : State} {u : UnitId} (h : unitStep u s = .next t) (us : List UnitId) :
    runTurns (u :: us) s = runTurns us t := by rw [runTurns, h]

/-- Turns from a good state go on. -/
theorem runTurns_goes : ∀ (us : List UnitId) {s : State}, s.Good → ∃ t, runTurns us s = .next t := by
  intro us
  induction us with
  | nil => exact fun {s} _ => ⟨s, rfl⟩
  | cons u us ih =>
    intro s hs
    obtain ⟨t, ht, hgood⟩ := unitStep_good hs u
    rw [runTurns_cons ht]
    exact ih hgood

/-- Two turns at the head of a list may change places. -/
theorem runTurns_swap {s : State} (hs : s.Good) (u v : UnitId) (us : List UnitId) :
    runTurns (u :: v :: us) s = runTurns (v :: u :: us) s := by
  by_cases huv : u = v
  · rw [huv]
  · obtain ⟨s1, h1, -⟩ := unitStep_good hs u
    obtain ⟨s2, h2, -⟩ := unitStep_good hs v
    obtain ⟨t, hv, hu⟩ := unitStep_comm huv h1 h2
    rw [runTurns_cons h1, runTurns_cons hv, runTurns_cons h2, runTurns_cons hu]

theorem runTurns_perm {us vs : List UnitId} (h : us.Perm vs) : ∀ {s : State}, s.Good → runTurns us s = runTurns vs s := by
  induction h with
  | nil => exact fun _ => rfl
  | cons u _ ih =>
    intro s hs
    obtain ⟨t, ht, hgood⟩ := unitStep_good hs u
    rw [runTurns_cons ht, runTurns_cons ht, ih hgood]
  | swap u v us => exact fun hs => runTurns_swap hs v u us
  | trans _ _ ih1 ih2 => exact fun hs => (ih1 hs).trans (ih2 hs)

/-- Settles O57, by induction on the permutation: turns of different units commute. -/
theorem interleavingsAgree : Obligations.InterleavingsAgree := by
  unfold Obligations.InterleavingsAgree
  intro s us vs hs hperm
  obtain ⟨t, ht⟩ := runTurns_goes us hs
  exact ⟨t, ht, (runTurns_perm hperm hs).symm.trans ht⟩

end Sys2Proof.Proofs
end

section
/-! PROOFS. Faults are precise: how a unit's turn enters FAULT (60_exceptions.md R318, R319, R321). -/

namespace Sys2Proof.Proofs

open Sys2Proof.Machine Sys2Proof.Laws

/-! ### PFE -/

/-- PFE's turn ends in FAULT only by the checks of its fetch, before anything has changed (40_png_filter.md R155). -/
theorem pfeTurn_faults {cfg : Config} {p q : Pfe} (hr : PfeTurn cfg p (.ok q)) (hb : p.sh.state = .busy)
    (hf : q.sh.state = .fault) : ∃ e, q = { p with sh := p.sh.raise e p.sh.inPos } := by
  generalize hq : Except.ok q = r at hr
  cases hr with
  | fetchFault e he => exact ⟨e, Except.ok.inj hq⟩
  | scanline f raw hraw hin =>
    obtain ⟨-, -, g, sh, -, hp, rfl⟩ := (scanline_eq_ok cfg f raw p q).mp hq.symm
    have hs : sh.state = .busy := by rw [place_frame hp, reconstruct_frame]; exact hb
    rcases endScanline_state { p.reconstruct f 0 raw with sh := sh } with h | h
    · simp [h, hs] at hf
    · simp [h] at hf

/-! ### RLD -/

/-- RLD's turn ends in FAULT only by its fetch or by a run out of bounds, before anything has changed (43_bmp_rle.md R272). -/
theorem rldTurn_faults {cfg : Config} {r q : Rld} (hr : RldTurn cfg r (.ok q)) (hb : r.sh.state = .busy)
    (hf : q.sh.state = .fault) : ∃ e, q = { r with sh := r.sh.raise e r.sh.inPos } := by
  generalize hq : Except.ok q = a at hr
  cases hr with
  | fetchFault => exact ⟨_, Except.ok.inj hq⟩
  | run px len hin heven hpx =>
    rcases (putRun_eq_ok cfg px len r q).mp hq.symm with ⟨-, hbounds⟩ | ⟨-, -, rfl⟩
    · exact ⟨_, hbounds⟩
    · simp [hb] at hf
  | eol hin => obtain rfl := Except.ok.inj hq; simp [hb] at hf
  | eob hin => obtain rfl := Except.ok.inj hq; simp at hf
  | delta dx dy hin => obtain rfl := Except.ok.inj hq; simp [hb] at hf

/-! ### LZD -/

section
variable {cfg : Config} {l m : Lzd}

/-! The elements that append a string leave STATE as it is (41_lzw.md R190 to R192). -/

theorem lit_state {c : BitVec 12} (h : l.lit cfg c = .ok m) : m.sh.state = l.sh.state := by
  rw [Lzd.lit] at h
  split at h
  · cases h
  · next l1 h1 =>
    have happended := append_state h1
    obtain rfl := Except.ok.inj h
    exact happended

theorem ref_state {c : BitVec 12} (h : l.ref cfg c = .ok m) : m.sh.state = l.sh.state := by
  rw [Lzd.ref] at h
  split at h
  · cases h
  · exact emit_state h

theorem kwk_state (h : l.kwk cfg = .ok m) : m.sh.state = l.sh.state := by
  rw [Lzd.kwk] at h
  split at h
  · cases h
  · exact emit_state h

/-- Only the illegal class faults (41_lzw.md R195). -/
theorem lzdElement_faults (hr : LzdElement cfg l (.ok m)) (hb : l.sh.state = .busy) (hf : m.sh.state = .fault) :
    m = { l with sh := l.sh.raise .lzwCode l.sh.inPos } := by
  generalize hm : Except.ok m = r at hr
  cases hr with
  | clear => obtain rfl := Except.ok.inj hm; simp [hb] at hf
  | eoi => obtain rfl := Except.ok.inj hm; simp at hf
  | lit c hc => simp [lit_state hm.symm, hb] at hf
  | ref c hv hc => simp [ref_state hm.symm, hb] at hf
  | kwk hv ha => simp [kwk_state hm.symm, hb] at hf
  | illegal => exact Except.ok.inj hm

/-- LZD's turn ends in FAULT only by the illegal class, when the fetch alone has changed the unit (60_exceptions.md R321). -/
theorem lzdTurn_faults (hr : LzdTurn cfg l (.ok m)) (hb : l.sh.state = .busy) (hf : m.sh.state = .fault) :
    ∃ d n p, m = { l with datum := d, nbits := n, sh := ({ l.sh with inPos := p } : Shell).raise .lzwCode p } := by
  generalize hm : Except.ok m = r at hr
  cases hr with
  | full => obtain rfl := Except.ok.inj hm; simp at hf
  | exhausted hout hfill => obtain rfl := Except.ok.inj hm; simp at hf
  | element hfill r hr =>
    subst hm
    have hm := lzdElement_faults hr (by rw [fetch_frame]; exact hb) hf
    rw [fetch_frame] at hm
    exact ⟨_, _, _, hm⟩

end

/-! ### G4E -/

/-- If the unit is in FAULT, it is by `E_OVF` with the cursor in `ERR_POS` (42_g4_encoder.md R239, 60_exceptions.md R317). -/
def FaultsByOvf (sh : Shell) : Prop :=
  sh.state = .fault → sh.err = .ovf ∧ sh.errPos = sh.inPos ∧ sh.flags = .clear

theorem faultsByOvf_of_busy {sh : Shell} (h : sh.state = .busy) : FaultsByOvf sh := by
  intro hf
  simp [h] at hf

section
variable {cfg : Config} {g : G4e}

theorem putResult_faultsByOvf (h : FaultsByOvf g.sh) {r : Except G4e G4e} (hr : PutResult cfg g r) :
    FaultsByOvf (packed r).sh := by
  cases hr with
  | sent a f n m hout hpacker => exact h
  | overflow a f n m hout => exact fun _ => ⟨rfl, rfl, rfl⟩

/-- What follows a word that was packed brings no other fault. -/
theorem thenDo_faultsByOvf (h : FaultsByOvf g.sh) {r : Except G4e G4e} (hr : PutResult cfg g r) {k : G4e → G4e}
    (hk : ∀ g1, FaultsByOvf g1.sh → FaultsByOvf (k g1).sh) : FaultsByOvf (G4e.thenDo r k).sh := by
  have hput := putResult_faultsByOvf h hr
  cases r with
  | error g1 => exact hput
  | ok g1 => exact hk g1 hput

theorem modeResult_faultsByOvf (h : FaultsByOvf g.sh) {t : G4e} (hr : ModeResult cfg g t) : FaultsByOvf t.sh := by
  cases hr with
  | mk c x ws k hk =>
    refine thenDo_faultsByOvf h (putbits_result cfg c g) fun g1 h1 => ?_
    rw [hk, afterMode_sh]
    exact h1

theorem endOfBlock_faultsByOvf (h : FaultsByOvf g.sh) : FaultsByOvf (g.endOfBlock cfg).sh := by
  refine thenDo_faultsByOvf h (putbits_result ..) fun g1 h1 => ?_
  refine thenDo_faultsByOvf h1 (putbits_result ..) fun g2 h2 => ?_
  refine thenDo_faultsByOvf h2 (flush_result cfg g2) fun g3 _ => ?_
  intro hf
  simp at hf

end

theorem drain_faultsByOvf : ∀ (ws : List RunWord) {s t : State}, drain ws s = .next t → FaultsByOvf s.g4e.sh →
    FaultsByOvf t.g4e.sh := by
  intro ws
  induction ws with
  | nil => intro s t h hs; obtain rfl := Host.Outcome.next.inj h; exact hs
  | cons w ws ih =>
    intro s t h hs
    cases hc : runCode s.cfg w with
    | none => rw [drain_noSuchWord s ws hc] at h; cases h
    | some c =>
      obtain ⟨i, hi, hexec⟩ := exec_runWord w
      rw [drain_cons s w ws i _ hi ((hexec _).trans (emitRun_eq w _ c hc))] at h
      have hput := putResult_faultsByOvf (g := { s.g4e with pend := ws }) hs (putbits_result s.cfg c _)
      split at h
      · exact ih h hput
      · obtain rfl := Host.Outcome.next.inj h
        exact hput

theorem runMode_faultsByOvf {s t : State} (h : runMode s.g4e.mode s = .next t) (hs : FaultsByOvf s.g4e.sh) :
    FaultsByOvf t.g4e.sh := by
  obtain ⟨g, he, hmode⟩ := exec_mode s
  have hfirst := modeResult_faultsByOvf hs hmode
  rw [runMode_next s _ _ he] at h
  split at h
  · exact drain_faultsByOvf _ h hfirst
  · obtain rfl := Host.Outcome.next.inj h
    exact hfirst

/-- G4E's turn ends in FAULT by `E_OVF`, or by a row opening that found too few bytes, before anything has changed
(42_g4_encoder.md R238, R239). -/
theorem g4eStep_faults {s t : State} (h : g4eStep s = .next t) (hb : s.g4e.sh.state = .busy) :
    t = { s with g4e := { s.g4e with sh := s.g4e.sh.raise .trunc s.g4e.sh.inPos } } ∨ FaultsByOvf t.g4e.sh := by
  have hs := faultsByOvf_of_busy hb
  unfold g4eStep at h
  split_ifs at h
  · exact .inr (drain_faultsByOvf _ h hs)
  · exact .inr (runMode_faultsByOvf h hs)
  · obtain rfl := Host.Outcome.next.inj h
    exact .inr (endOfBlock_faultsByOvf hs)
  · obtain ⟨g, hg, rfl⟩ := (settle_eq_next _ _ _).mp h
    unfold G4e.openRow at hg
    split_ifs at hg
    · obtain rfl := Except.ok.inj hg
      exact .inl rfl
    · obtain rfl := Except.ok.inj hg
      exact .inr (faultsByOvf_of_busy hb)

/-! ### The turn in the machine -/

/-- How a unit's turn enters FAULT: before anything has changed, in LZD after the fetch of an illegal code, in G4E by `E_OVF`
(60_exceptions.md R318, R319, R321). -/
inductive FaultEntry (s : State) : UnitId → State → Prop
  | precise (u : UnitId) (e : ErrCode) (hu : u ≠ .lzd) :
      FaultEntry s u (s.setShell u ((s.shell u).raise e (s.shell u).inPos))
  | illegal (d : Word) (n : BitVec 6) (p : Word) :
      FaultEntry s .lzd { s with lzd := { s.lzd with
        datum := d
        nbits := n
        sh := ({ s.lzd.sh with inPos := p } : Shell).raise .lzwCode p } }
  | overflow (u : UnitId) (t : State) (herr : (t.shell u).err = .ovf) (hpos : (t.shell u).errPos = (t.shell u).inPos)
      (hflags : (t.shell u).flags = .clear) : FaultEntry s u t

theorem unitStep_faultEntry {s t : State} {u : UnitId} (h : unitStep u s = .next t) (hb : (s.shell u).state = .busy)
    (hf : (t.shell u).state = .fault) : FaultEntry s u t := by
  cases u with
  | pfe =>
    obtain ⟨r, hs, hr⟩ := pfeStep_cases s
    rw [unitStep_pfe s hb, hs] at h
    obtain ⟨p, rfl, rfl⟩ := (settle_eq_next _ _ _).mp h
    obtain ⟨e, rfl⟩ := pfeTurn_faults hr hb hf
    exact .precise .pfe e (by decide)
  | lzd =>
    obtain ⟨r, hs, hr⟩ := lzdStep_cases s
    rw [unitStep_lzd s hb, hs] at h
    obtain ⟨l, rfl, rfl⟩ := (settle_eq_next _ _ _).mp h
    obtain ⟨d, n, p, rfl⟩ := lzdTurn_faults hr hb hf
    exact .illegal d n p
  | g4e =>
    rw [unitStep_g4e s hb] at h
    rcases g4eStep_faults h hb with rfl | hovf
    · exact .precise .g4e .trunc (by decide)
    · obtain ⟨herr, hpos, hflags⟩ := hovf hf
      exact .overflow .g4e t herr hpos hflags
  | rld =>
    obtain ⟨r, hs, hr⟩ := rldStep_cases s
    rw [unitStep_rld s hb, hs] at h
    obtain ⟨q, rfl, rfl⟩ := (settle_eq_next _ _ _).mp h
    obtain ⟨e, rfl⟩ := rldTurn_faults hr hb hf
    exact .precise .rld e (by decide)

/-- Settles O55: by the ways into FAULT. -/
theorem faultsArePrecise : Obligations.FaultsArePrecise := by
  unfold Obligations.FaultsArePrecise
  intro s t u h hb hf
  cases unitStep_faultEntry h hb hf with
  | precise u e hu =>
    rw [shell_setShell_self]
    exact ⟨rfl, rfl, fun _ => ⟨fun _ => rfl, fun hl => absurd hl hu⟩⟩
  | illegal d n p => exact ⟨rfl, rfl, fun _ => ⟨fun hl => absurd rfl hl, fun _ => rfl⟩⟩
  | overflow u t herr hpos hflags => exact ⟨hpos, hflags, fun hne => absurd herr hne⟩

end Sys2Proof.Proofs
end

section
/-! PROOFS. The state after a hardware reset (70_reset_and_hazards.md R350 to R352). -/

namespace Sys2Proof.Proofs

open Sys2Proof.Machine Sys2Proof.Laws

/-! ### The units after reset are good -/

section
variable (cfg : Config) (m n : Nat)

theorem cellsBelow_nil {w : Nat} (k : Nat) : cellsBelow k ([] : Mem w) := fun _ hc => absurd hc List.not_mem_nil

theorem pfeGood_reset : (Pfe.reset m n).Good cfg where
  shell := shellGood_reset cfg .pfe m n
  currCanonical := rfl
  priorCanonical := rfl
  currCells := cellsBelow_nil _
  priorCells := cellsBelow_nil _
  noShort := ⟨rfl, rfl⟩
  running := fun hb => RunState.noConfusion hb

theorem lzdGood_reset : (Lzd.reset m n).Good cfg where
  shell := shellGood_reset cfg .lzd m n
  prefixCanonical := rfl
  suffixCanonical := rfl
  prefixCells := cellsBelow_nil _
  suffixCells := cellsBelow_nil _
  shortFlag := fun hs => absurd hs Bool.false_ne_true
  running := fun hb => RunState.noConfusion hb

theorem g4eGood_reset : (G4e.reset m n).Good cfg where
  shell := shellGood_reset cfg .g4e m n
  curCanonical := rfl
  refCanonical := rfl
  curCells := cellsBelow_nil _
  refCells := cellsBelow_nil _
  noShort := ⟨rfl, rfl⟩
  running := fun hb => RunState.noConfusion hb

theorem rldGood_reset : (Rld.reset m n).Good cfg where
  shell := shellGood_reset cfg .rld m n
  noShort := ⟨rfl, rfl⟩
  running := fun hb => RunState.noConfusion hb

end

theorem defaultConfig_wf : defaultConfig.wf = true := by decide +kernel

/-- Settles O9: each unit is good after reset, and the default parameters are in their ranges. -/
theorem resetIsGood : Obligations.ResetIsGood where
  params := defaultConfig_wf
  pfe := pfeGood_reset _ 0 0
  lzd := lzdGood_reset _ 0 0
  g4e := g4eGood_reset _ 0 0
  rld := rldGood_reset _ 0 0

/-! ### Registers after reset (R351) -/

theorem shell_reset (u : UnitId) : State.reset.shell u = Shell.reset 0 0 := by cases u <;> rfl

theorem shell_hardReset (s : State) (u : UnitId) : ∃ m n, s.hardReset.shell u = Shell.reset m n := by
  cases u <;> exact ⟨_, _, rfl⟩

theorem status_reset (m n : Nat) : (Shell.reset m n).status = 0 := by
  change (Shell.reset 0 0).status = 0
  decide

/-- Every register of a unit after reset reads 0, whatever its buffers show. -/
theorem readReg_reset (u : UnitId) (m n : Nat) (i : BitVec 4) : (Shell.reset m n).readReg u i = 0 := by
  have hie : (if (Shell.reset m n).ie then (1 : Word) else 0) = 0 := rfl
  rw [readReg_of_good (shellGood_reset defaultConfig u m n), status_reset, hie]
  split_ifs <;> rfl

/-- A read of a unit that is not BUSY puts the register on the bus and changes nothing else (44_host_commands.md R290). -/
theorem readReg_of_not_busy {s : State} {u : UnitId} (h : (s.shell u).state ≠ .busy) (i : BitVec 4) :
    s.readReg u i = { s with busData := (s.shell u).readReg u i } := by
  have hbound : progressBound s.cfg (s.shell u) i = none := if_neg (mt (busy_iff _).mp h)
  rw [State.readReg, hbound]

/-- What a host finds in a unit after reset (R351). -/
theorem hostAct_read_reset {s : State} {u : UnitId} {m n : Nat} (h : s.shell u = Shell.reset m n) (i : BitVec 4) :
    hostAct (.read u i) s = .next { s with busData := 0 } := by
  have hb : (s.shell u).state ≠ .busy := by rw [h]; exact RunState.noConfusion
  rw [hostAct_read, readReg_of_not_busy hb, h, readReg_reset]

/-! ### START after reset (R351; 60_exceptions.md R312) -/

section
variable {cfg : Config} {m n : Nat}

theorem pfe_illegal_of_reset {p : Pfe} (h : p.sh = Shell.reset m n) : ¬p.legal cfg = true := by
  intro hl
  obtain ⟨hw, -⟩ := (pfeLegal_iff cfg p).mp hl
  rw [Pfe.width, h] at hw
  exact Nat.not_succ_le_zero 0 hw

theorem lzd_illegal_of_reset {l : Lzd} (h : l.sh = Shell.reset m n) : ¬l.legal cfg = true := by
  intro hl
  have hdepth : l.depth = 0 := by rw [Lzd.depth, h]; rfl
  obtain ⟨⟨-, h2, -⟩ | ⟨-, h8, -⟩, -⟩ := (lzdLegal_iff cfg l).mp hl <;> omega

theorem g4e_illegal_of_reset {g : G4e} (h : g.sh = Shell.reset m n) : ¬g.legal cfg = true := by
  intro hl
  obtain ⟨hw, -⟩ := (g4eLegal_iff cfg g).mp hl
  rw [G4e.width, h] at hw
  exact Nat.not_succ_le_zero 0 hw

theorem rld_illegal_of_reset {r : Rld} (h : r.sh = Shell.reset m n) : ¬r.legal cfg = true := by
  intro hl
  obtain ⟨hw, -⟩ := (rldLegal_iff cfg r).mp hl
  rw [Rld.width, h] at hw
  exact Nat.not_succ_le_zero 0 hw

/-- START's fault of a unit after reset: what START clears first is clear already (44_host_commands.md R292). -/
theorem startFault_reset {sh : Shell} (h : sh = Shell.reset m n) : sh.startClear.raise .cfg 0 = sh.Faulted .cfg 0 := by
  rw [h]
  rfl

/-- START without a configuration is `E_CFG` in every unit. -/
theorem exec_start_reset {s : State} {u : UnitId} (h : s.shell u = Shell.reset m n) :
    ∃ t, exec (.cmdStart u) s = .next t ∧ t.shell u = (s.shell u).Faulted .cfg 0 := by
  have hi : (s.shell u).state = .idle := by rw [h]; rfl
  have hfault := startFault_reset h
  cases u with
  | pfe => exact ⟨_, exec_startPfe s, (congrArg Pfe.sh (pfeStart_illegal hi (pfe_illegal_of_reset h))).trans hfault⟩
  | lzd => exact ⟨_, exec_startLzd s, (congrArg Lzd.sh (lzdStart_illegal hi (lzd_illegal_of_reset h))).trans hfault⟩
  | g4e => exact ⟨_, exec_startG4e s, (congrArg G4e.sh (g4eStart_illegal hi (g4e_illegal_of_reset h))).trans hfault⟩
  | rld => exact ⟨_, exec_startRld s, (congrArg Rld.sh (rldStart_illegal hi (rld_illegal_of_reset h))).trans hfault⟩

end

/-- Settles O10: after a hardware reset, and in `State.reset`, each unit's registers are those of `Shell.reset`. -/
theorem resetClearsRegisters : Obligations.ResetClearsRegisters := by
  unfold Obligations.ResetClearsRegisters
  intro s u
  obtain ⟨m, n, hshell⟩ := shell_hardReset s u
  have hidle : (s.hardReset.shell u).state = .idle := hardReset_state s u
  refine ⟨s.hardReset, hostAct_hardReset s, fun i => ?reads, hidle, irq_of_idle hidle, exec_start_reset hshell,
    exec_start_reset (shell_reset u)⟩
  case reads => exact ⟨_, hostAct_read_reset hshell i, rfl, hostAct_read_reset (shell_reset u) i⟩

end Sys2Proof.Proofs
end

section
/-! PROOFS. How many steps a run has left, and that each step leaves fewer (70_reset_and_hazards.md R362; 40_png_filter.md R161;
41_lzw.md R201; 42_g4_encoder.md R246; 43_bmp_rle.md R275). -/

namespace Sys2Proof.Proofs

open Sys2Proof.Machine Sys2Proof.Laws

/-! ### The steps left -/

/-- The scanlines of the passes from number `k` on (40_png_filter.md R153). -/
def scanlinesFrom (p : Pfe) (k : Nat) : Nat := (((p.passes.drop k).filter p.passFull).map p.passHeight).sum

/-- A step for each scanline still due (40_png_filter.md R161). -/
def pfeStepsLeft (p : Pfe) : Nat := p.ph.toNat - p.row.toNat + scanlinesFrom p (p.pass.toNat + 1)

/-- A step for every three stream bits not yet used, and one (41_lzw.md R201). -/
def lzdStepsLeft (l : Lzd) : Nat := (8 * l.sh.inLen.toNat - l.bitPos) / 3 + 1

/-- The modes left in the row G4E is in: each moves `A0` on, but for one at the start of a row whose first pixel is black. -/
def modesLeft (g : G4e) : Nat := g.width - g.a0.toNat + if g.a1.toNat ≤ g.a0.toNat then 1 else 0

/-- A row opening and at most `W + 1` modes for each row, and the end of block (42_g4_encoder.md R246). -/
def g4eStepsLeft (g : G4e) : Nat :=
  if g.inrow then (g.height - (g.row.toNat + 1)) * (g.width + 2) + modesLeft g + 1
  else (g.height - g.row.toNat) * (g.width + 2) + 1

/-- A step for every two bytes not yet read, and one (43_bmp_rle.md R275). -/
def rldStepsLeft (r : Rld) : Nat := (r.sh.inLen.toNat - r.sh.inPos.toNat) / 2 + 1

/-- A bound of the steps a BUSY unit still takes (R362). -/
def stepsLeft (u : UnitId) (s : State) : Nat :=
  match u with
  | .pfe => pfeStepsLeft s.pfe
  | .lzd => lzdStepsLeft s.lzd
  | .g4e => g4eStepsLeft s.g4e
  | .rld => rldStepsLeft s.rld

theorem g4eStepsLeft_pos (g : G4e) : 0 < g4eStepsLeft g := by
  unfold g4eStepsLeft
  split <;> exact Nat.succ_pos _

theorem stepsLeft_pos {s : State} {u : UnitId} (h : s.Good) (hb : (s.shell u).state = .busy) : 0 < stepsLeft u s := by
  cases u with
  | pfe => exact Nat.add_pos_left (Nat.sub_pos_of_lt (h.pfe.running hb).row) _
  | lzd => exact Nat.succ_pos _
  | g4e => exact g4eStepsLeft_pos _
  | rld => exact Nat.succ_pos _

/-- A unit's turn leaves `IN_LEN` and the dimensions as the host has set them. -/
theorem hostPartKept_config {a b : Shell} (h : HostPartKept a b) :
    b.inLen = a.inLen ∧ b.cfg0 = a.cfg0 ∧ b.cfg1 = a.cfg1 := by
  unfold HostPartKept at h
  rw [h]
  exact ⟨rfl, rfl, rfl⟩

/-! ### PFE (40_png_filter.md R155, R161) -/

/-- The scanlines of the first pass of a list that has some, and those of the passes after it, are all the list has. -/
theorem heights_firstFull (p : Pfe) (g : PassGeom) (gs : List PassGeom) : ∀ k, gs[p.firstFull k gs - k]? = some g →
    ((gs.filter p.passFull).map p.passHeight).sum =
      p.passHeight g + (((gs.drop (p.firstFull k gs - k + 1)).filter p.passFull).map p.passHeight).sum := by
  induction gs with
  | nil => intro k hg; cases hg
  | cons g' gs ih =>
    intro k hg
    rw [Pfe.firstFull] at hg ⊢
    split at hg
    · next hfull =>
      rw [Nat.sub_self] at hg
      obtain rfl := Option.some.inj hg
      rw [if_pos hfull, List.filter_cons_of_pos hfull, Nat.sub_self]
      rfl
    · next hempty =>
      obtain ⟨hle, -⟩ := firstFull_spec p gs (k + 1)
      have hindex : p.firstFull (k + 1) gs - k = p.firstFull (k + 1) gs - (k + 1) + 1 := by omega
      rw [hindex] at hg
      rw [if_neg hempty, List.filter_cons_of_neg hempty, hindex]
      exact ih (k + 1) hg

/-- The passes after `q` have the scanlines of the next one and of those after it. -/
theorem scanlinesFrom_nextPass {p : Pfe} {q : Nat} {g : PassGeom} (hq : q < p.passes.length)
    (hg : p.passes[p.nextPass q]? = some g) :
    scanlinesFrom p (q + 1) = p.passHeight g + scanlinesFrom p (p.nextPass q + 1) := by
  obtain ⟨hlt, -⟩ := nextPass_spec p q hq
  have hindex : q + 1 + (p.nextPass q - (q + 1)) = p.nextPass q := by omega
  have hget : (p.passes.drop (q + 1))[p.nextPass q - (q + 1)]? = some g := by rw [List.getElem?_drop, hindex, hg]
  have hsum := heights_firstFull p g (p.passes.drop (q + 1)) (q + 1) hget
  rw [List.drop_drop] at hsum
  rw [scanlinesFrom, hsum, scanlinesFrom, ← hindex]
  rfl

/-- A scanline finished in a run that goes on leaves one fewer, the passes still due included. -/
theorem endScanline_stepsLeft {cfg : Config} {p : Pfe} (hr : p.Running cfg) (hb : p.endScanline.sh.state = .busy) :
    pfeStepsLeft p.endScanline < pfeStepsLeft p := by
  obtain ⟨-, ⟨g, hg, -⟩, hrow⟩ := hr
  have hq : p.pass.toNat < p.passes.length := (List.getElem?_eq_some_iff.mp hg).1
  have hnext : (word (p.row.toNat + 1)).toNat = p.row.toNat + 1 := word_toNat_of_lt (by have := p.ph.isLt; omega)
  rw [endScanline_eq] at hb ⊢
  split at hb
  · next hlast =>
    rw [if_pos hlast]
    rw [← hlast, hnext] at hrow
    cases hn : p.passes[p.nextPass p.pass.toNat]? with
    | none =>
      rw [endPass_none (nextRow p) _ (nextRow_nextPass p) hn] at hb
      cases hb
    | some g' =>
      have hsum := scanlinesFrom_nextPass hq hn
      have hheight : (word (p.passHeight g')).toNat = p.passHeight g' :=
        word_toNat_of_lt ((passHeight_le (List.mem_of_getElem? hn)).trans_lt p.sh.cfg1.isLt)
      have hpass : (BitVec.ofNat 4 (p.nextPass p.pass.toNat)).toNat = p.nextPass p.pass.toNat := by
        have := (List.getElem?_eq_some_iff.mp hn).1
        have := passes_length_le p
        rw [BitVec.toNat_ofNat]
        omega
      rw [endPass_some (nextRow p) _ g' (nextRow_nextPass p) hn]
      have hleft : pfeStepsLeft ((nextRow p).enterPass (p.nextPass p.pass.toNat) g') =
          p.passHeight g' + scanlinesFrom p (p.nextPass p.pass.toNat + 1) := by
        rw [pfeStepsLeft, enterPass_ph, enterPass_row, enterPass_pass, hpass]
        exact congrArg (· + _) hheight
      rw [hleft, pfeStepsLeft, ← hlast, hnext]
      omega
  · next hmore =>
    rw [if_neg hmore]
    have hleft : pfeStepsLeft (nextRow p) =
        p.ph.toNat - (word (p.row.toNat + 1)).toNat + scanlinesFrom p (p.pass.toNat + 1) := rfl
    rw [hleft, hnext, pfeStepsLeft]
    omega

theorem pfeTurn_stepsLeft {cfg : Config} {p q : Pfe} (hr : p.Running cfg) (ht : PfeTurn cfg p (.ok q))
    (hb : q.sh.state = .busy) : pfeStepsLeft q < pfeStepsLeft p := by
  generalize hq : Except.ok q = a at ht
  cases ht with
  | fetchFault e he =>
    obtain rfl := Except.ok.inj hq
    cases hb
  | scanline f raw hraw hin =>
    obtain ⟨-, -, g, sh, -, hp, rfl⟩ := (scanline_eq_ok cfg f raw p q).mp hq.symm
    rw [place_frame hp, reconstruct_frame] at hb ⊢
    exact endScanline_stepsLeft (cfg := cfg) ⟨hr.legal, hr.pass, hr.row⟩ hb

/-! ### LZD (41_lzw.md R183 to R185, R201) -/

section
variable {cfg : Config} {l m : Lzd}

theorem append_bitPos {str : List Byte} (h : l.append cfg str = .ok m) : m.bitPos = l.bitPos := by
  obtain ⟨-, rfl⟩ := (append_eq_ok cfg str l m).mp h
  rfl

theorem emit_bitPos {c : BitVec 12} {str : List Byte} (h : l.emit cfg c str = .ok m) : m.bitPos = l.bitPos := by
  cases str with
  | nil => cases h
  | cons f str =>
    obtain ⟨l1, h1, rfl⟩ := (emit_eq_ok cfg c f str l m).mp h
    have happended := append_bitPos h1
    rw [addEntry_frame]
    exact happended

/-- An element does not move the position of the next code: the fetch has. -/
theorem lzdElement_bitPos (hr : LzdElement cfg l (.ok m)) : m.bitPos = l.bitPos := by
  generalize hm : Except.ok m = r at hr
  cases hr with
  | clear => obtain rfl := Except.ok.inj hm; rfl
  | eoi => obtain rfl := Except.ok.inj hm; rfl
  | illegal => obtain rfl := Except.ok.inj hm; rfl
  | lit c hc =>
    rw [Lzd.lit] at hm
    split at hm
    · cases hm
    · next l1 h1 =>
      have happended := append_bitPos h1
      obtain rfl := Except.ok.inj hm
      exact happended
  | ref c hv hc =>
    rw [Lzd.ref] at hm
    split at hm
    · cases hm
    · exact emit_bitPos hm.symm
  | kwk hv ha =>
    rw [Lzd.kwk] at hm
    split at hm
    · cases hm
    · exact emit_bitPos hm.symm

/-- A code fetched in a run is of three stream bits at least. -/
theorem fetch_bitPos (h : l.Good cfg) (hb : l.sh.state = .busy) (hf : (l.fill 2).2 = true) :
    l.bitPos + 3 ≤ (l.fill 2).1.take.2.bitPos ∧ (l.fill 2).1.take.2.bitPos ≤ 8 * l.sh.inLen.toNat := by
  have hr := h.running hb
  obtain ⟨hd2, -, hcs, h12, -, -⟩ := (cxOk_iff l).mp hr.ranges
  have hbuf := running_buffered hr (h.shell.cursor hb).1
  have hroom := (fill_true_iff hbuf h12 hr.buffered).mp hf
  obtain ⟨hfilled, -, -, hcode, -⟩ := fill_good h hb
  have htake := take_bitPos hfilled (by rw [fill_codeSize]; exact hcode hf)
  rw [fill_codeSize, (fill_bitPos 2 h12).1] at htake
  omega

theorem lzdTurn_stepsLeft (h : l.Good cfg) (hb : l.sh.state = .busy) (ht : LzdTurn cfg l (.ok m))
    (hbm : m.sh.state = .busy) : lzdStepsLeft m < lzdStepsLeft l := by
  obtain ⟨hlen, -⟩ := hostPartKept_config (lzdTurn_hostPart ht)
  generalize hm : Except.ok m = a at ht
  cases ht with
  | full =>
    obtain rfl := Except.ok.inj hm
    cases hbm
  | exhausted hout hf =>
    obtain rfl := Except.ok.inj hm
    cases hbm
  | element hf r hr =>
    subst hm
    have hpos := lzdElement_bitPos hr
    obtain ⟨hused, hroom⟩ := fetch_bitPos h hb hf
    unfold lzdStepsLeft
    rw [hlen, hpos]
    omega

end

/-! ### RLD (43_bmp_rle.md R263, R275) -/

theorem putRun_inPos {cfg : Config} {px : List Byte} {len : Nat} {r q : Rld} (h : r.putRun cfg px len = .ok q)
    (hb : q.sh.state = .busy) : q.sh.inPos = word (r.sh.inPos.toNat + len) := by
  rcases (putRun_eq_ok cfg px len r q).mp h with ⟨-, rfl⟩ | ⟨-, -, rfl⟩
  · cases hb
  · rfl

/-- A command after which the run goes on has moved the cursor past it: at least its two bytes, and no more than there are
(30_encoding.md R103). -/
theorem exec_rle_takes {m : Bool} {bs rest : List Byte} {i : Instr} (hd : decodeRle m bs = .ok (i, rest)) {s t : State}
    (h : exec i s = .next t) (hb : t.rld.sh.state = .busy) :
    ∃ len, 2 ≤ len ∧ len ≤ bs.length ∧ t.rld.sh.inPos = word (s.rld.sh.inPos.toNat + len) := by
  have run {px : List Byte} {len : Nat} (h : settle (s.rld.putRun s.cfg px len) (fun r => { s with rld := r }) = .next t) :
      t.rld.sh.inPos = word (s.rld.sh.inPos.toNat + len) := by
    obtain ⟨q, hq, rfl⟩ := (settle_eq_next _ _ _).mp h
    exact putRun_inPos hq hb
  have two (nb : Nat) : 2 ≤ absLength nb := by unfold absLength; omega
  obtain ⟨h2, hi⟩ := decodeRle_ok hd
  rcases hi with ⟨n, v, rfl⟩ | ⟨n, a, b, rfl⟩ | rfl | rfl | ⟨dx, dy, rfl, h4⟩ | ⟨n, d, rfl, hl⟩ | ⟨n, d, rfl, hl⟩
  · exact ⟨2, le_rfl, h2, run h⟩
  · exact ⟨2, le_rfl, h2, run h⟩
  · obtain rfl := Host.Outcome.next.inj h
    exact ⟨2, le_rfl, h2, rfl⟩
  · obtain rfl := Host.Outcome.next.inj h
    cases hb
  · obtain rfl := Host.Outcome.next.inj h
    exact ⟨4, by decide, h4, rfl⟩
  · exact ⟨_, two _, hl, run h⟩
  · exact ⟨_, two _, hl, run h⟩

theorem rldStep_stepsLeft {s t : State} (h : rldStep s = .next t) (hlen : t.rld.sh.inLen = s.rld.sh.inLen)
    (hb : t.rld.sh.state = .busy) : rldStepsLeft t.rld < rldStepsLeft s.rld := by
  cases hf : s.rld.fetch with
  | error e =>
    obtain rfl := Host.Outcome.next.inj ((rldStep_faults s e hf).symm.trans h)
    cases hb
  | ok i =>
    rw [rldStep_runs s i hf] at h
    unfold Rld.fetch at hf
    split at hf
    · next i' rest hd =>
      obtain rfl := Except.ok.inj hf
      obtain ⟨len, h2, hle, hpos⟩ := exec_rle_takes hd h hb
      rw [window_length] at hle
      have hpos : t.rld.sh.inPos.toNat = s.rld.sh.inPos.toNat + len := by
        rw [hpos]
        exact word_toNat_of_lt (by have := s.rld.sh.inLen.isLt; omega)
      unfold rldStepsLeft
      rw [hlen, hpos]
      omega
    · cases hf

/-! ### G4E: a mode moves `A0` on (42_g4_encoder.md R226 to R233) -/

section
variable {cfg : Config} {g t : G4e}

/-- A change of colour is looked for after the first pixel. -/
theorem lt_finddiff {pix : Nat → Bool} {bs be : Nat} (h : bs < be) : bs < finddiff pix bs be (pix bs) := by
  obtain ⟨n, hn⟩ := Nat.exists_eq_add_of_lt h
  rw [finddiff_eq, show be - bs = n + 1 by omega, spanFrom, if_pos rfl]
  omega

theorem lt_finddiff2 {pix : Nat → Bool} {bs be : Nat} (h : bs < be) : bs < finddiff2 pix bs be (pix bs) := by
  rw [finddiff2, if_pos h]
  exact lt_finddiff h

/-- In a row `A1` and `B1` do not stand before `A0` (R226, R229). -/
theorem elements_ordered (hr : g.Running cfg) (hi : g.inrow = true) :
    g.a0.toNat ≤ g.a1.toNat ∧ g.a1.toNat ≤ g.width ∧ g.a0.toNat ≤ g.b1.toNat := by
  obtain ⟨-, ha0⟩ := hr.inRow hi
  rcases (elements_iff g).mp (hr.elements hi) with ⟨h0, h1, -⟩ | ⟨h1, h2⟩
  · have hle : g.a1.toNat ≤ g.width := by
      rw [h1]
      refine (firstBlack_toNat g g.curPixel).trans_le ?_
      split
      · exact Nat.zero_le _
      · exact finddiff_le (Nat.zero_le _)
    rw [h0]
    exact ⟨Nat.zero_le _, hle, Nat.zero_le _⟩
  · have hb2 {k k' : Bool} : g.a0.toNat ≤ finddiff g.refPixel (finddiff g.refPixel g.a0.toNat g.width k) g.width k' ∧
        finddiff g.refPixel (finddiff g.refPixel g.a0.toNat g.width k) g.width k' ≤ g.width := by
      obtain ⟨hge, hle⟩ := finddiff_bounds g.refPixel g.a0.toNat g.width k ha0.le
      obtain ⟨hge', hle'⟩ := finddiff_bounds g.refPixel _ g.width k' hle
      exact ⟨hge.trans hge', hle'⟩
    have ha1 := finddiff_bounds g.curPixel g.a0.toNat g.width (g.curPixel g.a0.toNat) ha0.le
    rw [h1, h2]
    refine ⟨?_, ?_, ?_⟩
    · exact ha1.1.trans_eq (word_column ha1.2).symm
    · exact (word_column ha1.2).trans_le ha1.2
    · exact hb2.1.trans_eq (word_column hb2.2).symm

/-- Where a mode sets `A0` to: past it, or, where the row starts black and so with `A1` at `A0`, to where it is. -/
def Onward (g : G4e) (x : Nat) : Prop := g.a0.toNat < x ∨ g.a1.toNat ≤ g.a0.toNat ∧ x = g.a0.toNat

/-- `b2` where the pass mode is due (R227, R231). -/
theorem onward_b2 (hr : g.Running cfg) (hi : g.inrow = true) (hm : g.b2 < g.a1.toNat) : Onward g g.b2 := by
  obtain ⟨-, ha1, hb1⟩ := elements_ordered hr hi
  refine .inl (hb1.trans_lt ?_)
  rcases Nat.lt_or_ge g.b1.toNat g.width with hlt | hge
  · exact lt_finddiff2 hlt
  · have hend : g.b2 = g.width := if_neg (Nat.not_lt.mpr hge)
    omega

/-- `A1` (R232). -/
theorem onward_a1 (hr : g.Running cfg) (hi : g.inrow = true) : Onward g g.a1.toNat := by
  obtain ⟨ha0, -, -⟩ := elements_ordered hr hi
  unfold Onward
  omega

/-- `a2` (R228, R233). -/
theorem onward_a2 (hr : g.Running cfg) (hi : g.inrow = true) : Onward g g.a2 := by
  obtain ⟨ha0, ha1, -⟩ := elements_ordered hr hi
  refine .inl ?_
  rcases Nat.lt_or_ge g.a1.toNat g.width with hlt | hge
  · exact ha0.trans_lt (lt_finddiff2 hlt)
  · have hend : g.a2 = g.width := if_neg (Nat.not_lt.mpr hge)
    rw [hend]
    exact (hr.inRow hi).2

/-- A row moved on from there has fewer modes left, or is the next one. -/
theorem moved_stepsLeft (hr : g.Running cfg) (hi : g.inrow = true) {x : Nat} (hx : Onward g x) (hm : g.Moved t x)
    (hsh : HostPartKept g.sh t.sh) : g4eStepsLeft t < g4eStepsLeft g := by
  obtain ⟨-, ha0⟩ := hr.inRow hi
  obtain ⟨-, h0, h1⟩ := hostPartKept_config hsh
  have hw : t.width = g.width := by rw [G4e.width, h0, G4e.width]
  have hh : t.height = g.height := by rw [G4e.height, h1, G4e.height]
  obtain ⟨hxt, hend, hgo⟩ := hm
  rw [g4eStepsLeft, g4eStepsLeft, if_pos hi, hw, hh]
  rcases Nat.lt_or_ge x g.width with hlt | hge
  · obtain ⟨hrow, hit, -, ha1, -⟩ := hgo hlt
    have hpast : x < t.a1.toNat := ha1.symm ▸ lt_finddiff hlt
    have hleft : modesLeft t < modesLeft g := by
      unfold modesLeft
      rw [hw, hxt, if_neg (Nat.not_le.mpr hpast)]
      rcases hx with hx | ⟨hblack, hx⟩
      · omega
      · rw [if_pos hblack]
        omega
    rw [if_pos (hit.trans hi), hrow]
    omega
  · obtain ⟨hrow, hit, -⟩ := hend hge
    have hleft : 0 < modesLeft g := Nat.add_pos_left (Nat.sub_pos_of_lt ha0) _
    rw [if_neg (by rw [hit]; decide), hrow]
    omega

/-- A vertical element has a word of the mode table (R232). -/
theorem verticalOf_word {d : Int} {i : Instr} (t : ModeTab) (h : verticalOf d = some i) :
    ∃ c, (i, c) ∈ [(Instr.g4Vr3, t.vr3), (.g4Vr2, t.vr2), (.g4Vr1, t.vr1), (.g4V0, t.v0), (.g4Vl1, t.vl1),
      (.g4Vl2, t.vl2), (.g4Vl3, t.vl3)] := by
  unfold verticalOf at h
  split_ifs at h <;> obtain rfl := Option.some.inj h <;> simp

/-- The mode due, whichever it is, sends its bits and moves `A0` onward, or overflows (R230). -/
theorem exec_mode_onward {s : State} (hwf : s.cfg.wf = true) (hr : s.g4e.Running s.cfg) (hi : s.g4e.inrow = true) :
    ∃ bs x ws t, exec s.g4e.mode s = .next { s with g4e := t } ∧ ModeEnds s.cfg s.g4e bs x ws t ∧ Onward s.g4e x := by
  unfold G4e.mode
  split
  · next hpass => exact ⟨_, _, _, _, rfl, passMode_ends hwf hr hi, onward_b2 hr hi hpass⟩
  · cases hv : verticalOf s.g4e.diff with
    | none => exact ⟨_, _, _, _, rfl, horizontal_ends hwf hr hi, onward_a2 hr hi⟩
    | some i =>
      obtain ⟨c, hmem⟩ := verticalOf_word s.cfg.modeTab hv
      obtain ⟨hc, hexec⟩ := exec_vertical s hmem
      exact ⟨_, _, _, _, hexec, vertical_ends hwf hr hi hc, onward_a1 hr hi⟩

/-! ### G4E's turn (R230, R246) -/

/-- Bits sent and then the end of the run, or `E_OVF`: the run is over. -/
theorem thenDo_not_busy {r : Except G4e G4e} (hr : PutResult cfg g r) {k : G4e → G4e}
    (hk : ∀ g1, (k g1).sh.state ≠ .busy) : (G4e.thenDo r k).sh.state ≠ .busy := by
  cases hr with
  | sent a f n m hout hpacker => exact hk _
  | overflow a f n m hout => exact RunState.noConfusion

theorem endOfBlock_not_busy (cfg : Config) (g : G4e) : (g.endOfBlock cfg).sh.state ≠ .busy := by
  refine thenDo_not_busy (putbits_result ..) fun g1 => ?_
  refine thenDo_not_busy (putbits_result ..) fun g2 => ?_
  exact thenDo_not_busy (flush_result cfg g2) fun g3 => RunState.noConfusion

/-- Between rows each row due has `W + 2` steps. -/
theorem betweenRows_stepsLeft (hi : g.inrow = false) :
    g4eStepsLeft g = (g.height - g.row.toNat) * (g.width + 2) + 1 := if_neg (by rw [hi]; decide)

/-- The row G4E is in has `W + 1` steps left at most. -/
theorem inRow_stepsLeft_lt (hi : g.inrow = true) (hrow : g.row.toNat < g.height) :
    g4eStepsLeft g < (g.height - g.row.toNat) * (g.width + 2) + 1 := by
  have hmodes : modesLeft g ≤ g.width + 1 := by
    refine Nat.add_le_add (Nat.sub_le _ _) ?_
    split <;> decide
  have hrows : g.height - g.row.toNat = g.height - (g.row.toNat + 1) + 1 := by omega
  rw [g4eStepsLeft, if_pos hi, hrows, Nat.succ_mul]
  omega

/-- G4E's bound holds within a row too (R246). -/
theorem g4eStepsLeft_le (hr : g.Running cfg) : g4eStepsLeft g ≤ (g.height - g.row.toNat) * (g.width + 2) + 1 := by
  cases hi : g.inrow with
  | true => exact (inRow_stepsLeft_lt hi (hr.inRow hi).1).le
  | false => exact (betweenRows_stepsLeft hi).le

/-- A row opened leaves fewer steps than a row still to open. -/
theorem openRow_stepsLeft (hr : g.Running cfg) (hi : g.inrow = false) (hrow : g.row.toNat < g.height)
    (h : g.openRow cfg = .ok t) (hb : t.sh.state = .busy) : g4eStepsLeft t < g4eStepsLeft g := by
  rcases Nat.lt_or_ge g.sh.inLen.toNat (g.sh.inPos.toNat + g.rowBytes) with hshort | hin
  · obtain rfl := Except.ok.inj ((openRow_truncated hshort).symm.trans h)
    cases hb
  · obtain rfl := Except.ok.inj ((openRow_loads hr.legal hin).symm.trans h)
    calc g4eStepsLeft (loadedRow g).rowStart < (g.height - g.row.toNat) * (g.width + 2) + 1 :=
          inRow_stepsLeft_lt (g := (loadedRow g).rowStart) rfl hrow
      _ = g4eStepsLeft g := (betweenRows_stepsLeft hi).symm

end

theorem g4eStep_stepsLeft {s t : State} (hwf : s.cfg.wf = true) (hb : s.g4e.sh.state = .busy) (hr : s.g4e.Running s.cfg)
    (h : g4eStep s = .next t) (hbt : t.g4e.sh.state = .busy) : g4eStepsLeft t.g4e < g4eStepsLeft s.g4e := by
  have hp := hr.nothingPending
  have hsh := g4eStep_hostPart h
  cases hi : s.g4e.inrow with
  | true =>
    obtain ⟨bs, x, ws, g1, he, hmode, hx⟩ := exec_mode_onward hwf hr hi
    obtain ⟨g2, hrun, hfits, hover⟩ := runMode_ends hwf hb he hmode
    obtain rfl := Host.Outcome.next.inj (hrun.symm.trans ((g4eStep_mode s hp hi).symm.trans h))
    by_cases hroom : s.g4e.Room s.cfg (bs ++ runBits s.cfg ws).length
    · obtain ⟨-, hmoved, -, -⟩ := hfits hroom
      exact moved_stepsLeft hr hi hx hmoved hsh
    · have hfault : g2.sh.state = .fault := congrArg Shell.state (hover hroom)
      rw [hfault] at hbt
      cases hbt
  | false =>
    rcases hr.rows.eq_or_lt with hrow | hrow
    · have hend := (g4eStep_endOfBlock s hp hi hrow).symm.trans h
      obtain rfl := Host.Outcome.next.inj ((exec_g4Eol s).symm.trans hend)
      exact absurd hbt (endOfBlock_not_busy s.cfg s.g4e)
    · rw [g4eStep_openRow s hp hi hrow] at h
      obtain ⟨g, hg, rfl⟩ := (settle_eq_next _ _ _).mp h
      exact openRow_stepsLeft hr hi hrow hg hbt

/-! ### A unit's turn leaves fewer steps -/

theorem unitStep_stepsLeft {s t : State} {u : UnitId} (h : s.Good) (hb : (s.shell u).state = .busy)
    (ht : unitStep u s = .next t) (hbt : (t.shell u).state = .busy) : stepsLeft u t < stepsLeft u s := by
  cases u with
  | pfe =>
    obtain ⟨r, hs, hr⟩ := pfeStep_cases s
    rw [unitStep_pfe s hb, hs] at ht
    obtain ⟨p, rfl, rfl⟩ := (settle_eq_next _ _ _).mp ht
    exact pfeTurn_stepsLeft (h.pfe.running hb) hr hbt
  | lzd =>
    obtain ⟨r, hs, hr⟩ := lzdStep_cases s
    rw [unitStep_lzd s hb, hs] at ht
    obtain ⟨l, rfl, rfl⟩ := (settle_eq_next _ _ _).mp ht
    exact lzdTurn_stepsLeft h.lzd hb hr hbt
  | g4e =>
    rw [unitStep_g4e s hb] at ht
    exact g4eStep_stepsLeft h.params hb (h.g4e.running hb) ht hbt
  | rld =>
    obtain ⟨r, hs, hr⟩ := rldStep_cases s
    rw [unitStep_rld s hb] at ht
    obtain ⟨q, rfl, rfl⟩ := (settle_eq_next _ _ _).mp (hs.symm.trans ht)
    exact rldStep_stepsLeft ht (hostPartKept_config (rldTurn_hostPart hr)).1 hbt

/-- The run of a unit is over. -/
def RunOver (u : UnitId) (s : State) : Prop := (s.shell u).state = .done ∨ (s.shell u).state = .fault

/-- A BUSY unit's turn ends its run or leaves fewer steps. -/
theorem unitStep_progress {s : State} {u : UnitId} (h : s.Good) (hb : (s.shell u).state = .busy) :
    ∃ t, unitStep u s = .next t ∧ t.Good ∧
      (RunOver u t ∨ (t.shell u).state = .busy ∧ stepsLeft u t < stepsLeft u s) := by
  obtain ⟨t, ht, hgood⟩ := unitStep_good h u
  refine ⟨t, ht, hgood, ?_⟩
  by_cases hbt : (t.shell u).state = .busy
  · exact .inr ⟨hbt, unitStep_stepsLeft h hb ht hbt⟩
  · obtain ⟨-, -, hover⟩ := unitStep_moves (v := u) ht (by rw [hb]; exact hbt)
    exact .inl hover

/-! ### Turns until the run is over -/

/-- A unit whose run is over does nothing in its turns (60_exceptions.md R335). -/
theorem runTurns_runOver {s : State} {u : UnitId} (h : RunOver u s) : ∀ n, runTurns (List.replicate n u) s = .next s := by
  have hb : (s.shell u).state ≠ .busy := by rcases h with h | h <;> rw [h] <;> decide
  intro n
  induction n with
  | zero => rfl
  | succ n ih => rw [List.replicate_succ, runTurns_cons (unitStep_idle u s hb), ih]

/-- As many turns as there are steps left end a run. -/
theorem runTurns_ends {u : UnitId} : ∀ (n : Nat) {s : State}, s.Good → (s.shell u).state = .busy → stepsLeft u s ≤ n →
    ∃ t, runTurns (List.replicate n u) s = .next t ∧ RunOver u t := by
  intro n
  induction n with
  | zero => exact fun h hb hn => absurd hn (Nat.not_le.mpr (stepsLeft_pos h hb))
  | succ n ih =>
    intro s h hb hn
    obtain ⟨t, ht, hgood, hover | ⟨hbt, hless⟩⟩ := unitStep_progress h hb
    · exact ⟨t, by rw [List.replicate_succ, runTurns_cons ht, runTurns_runOver hover], hover⟩
    · rw [List.replicate_succ, runTurns_cons ht]
      exact ih hgood hbt (by omega)

/-- Settles O58: each bound is the number of steps left, or, in G4E, not below it. -/
theorem runsEnd : Obligations.RunsEnd := by
  unfold Obligations.RunsEnd
  intro s h
  exact ⟨fun hb => runTurns_ends _ h hb le_rfl, fun hb => runTurns_ends _ h hb le_rfl,
    fun hb => runTurns_ends _ h hb (g4eStepsLeft_le (h.g4e.running hb)), fun hb => runTurns_ends _ h hb le_rfl⟩

end Sys2Proof.Proofs
end

section
/-! PROOFS. The machine's run grants a BUSY unit its turns and ends its run (70_reset_and_hazards.md R363; log 6). -/

namespace Sys2Proof.Proofs

open Sys2Proof.Machine Sys2Proof.Laws

/-! ### Runs of the machine -/

/-- A run of `n + 1` steps is a step and a run of `n`. -/
theorem run_succ {M : Host.Core} {n : Nat} {s v : M.State} :
    M.run (n + 1) s = .next v ↔ ∃ t, M.step s = .next t ∧ M.run n t = .next v := by
  rw [Host.Core.run]
  cases M.step s <;> simp

/-- The machine's run comes from `s` to `t`. -/
def Reaches (s t : State) : Prop := ∃ n, Sys2Proof.core.run n s = .next t

theorem reaches_refl (s : State) : Reaches s s := ⟨0, rfl⟩

theorem reaches_step {s t v : State} (h : step s = .next t) (hr : Reaches t v) : Reaches s v := by
  obtain ⟨n, hn⟩ := hr
  exact ⟨n + 1, run_succ.mpr ⟨t, h, hn⟩⟩

theorem reaches_trans {s t v : State} (h1 : Reaches s t) (h2 : Reaches t v) : Reaches s v := by
  obtain ⟨m, hm⟩ := h1
  induction m generalizing s with
  | zero =>
    obtain rfl := Host.Outcome.next.inj hm
    exact h2
  | succ m ih =>
    obtain ⟨s1, hs1, hrun⟩ := run_succ.mp hm
    exact reaches_step hs1 (ih hrun)

/-! ### What leaves a unit's run as it is -/

/-- From `s` to `t` the turns granted are the same, no access has joined the host's queue, and a run of `u` goes on with as
many steps left. -/
structure LeavesRun (u : UnitId) (s t : State) : Prop where
  sched : t.sched = s.sched
  tick : t.tick = s.tick
  hostQ : t.hostQ ⊆ s.hostQ
  busy : (s.shell u).state = .busy → (t.shell u).state = .busy
  left : (s.shell u).state = .busy → stepsLeft u t = stepsLeft u s

theorem leavesRun_refl (u : UnitId) (s : State) : LeavesRun u s s := ⟨rfl, rfl, List.Subset.refl _, id, fun _ => rfl⟩

theorem stepsLeft_withUnitOf_other {s : State} {u v : UnitId} (h : v ≠ u) (t : State) :
    stepsLeft u (withUnitOf s v t) = stepsLeft u s := by
  cases u <;> cases v <;> simp [withUnitOf, stepsLeft] at h ⊢

theorem shell_withUnitOf_other {s : State} {u v : UnitId} (h : v ≠ u) (t : State) :
    (withUnitOf s v t).shell u = s.shell u := by
  cases u <;> cases v <;> simp [withUnitOf] at h ⊢

/-- The turns granted and the host's queue are not a unit's. -/
theorem withUnitOf_frame (s t : State) (u : UnitId) :
    (withUnitOf s u t).sched = s.sched ∧ (withUnitOf s u t).tick = s.tick ∧ (withUnitOf s u t).hostQ = s.hostQ := by
  cases u <;> exact ⟨rfl, rfl, rfl⟩

/-- Another unit put in place leaves the run. -/
theorem leavesRun_withUnitOf {s : State} {u v : UnitId} (h : v ≠ u) (t : State) : LeavesRun u s (withUnitOf s v t) := by
  obtain ⟨hsched, htick, hq⟩ := withUnitOf_frame s t v
  exact ⟨hsched, htick, hq ▸ List.Subset.refl _, fun hb => by rwa [shell_withUnitOf_other h],
    fun _ => stepsLeft_withUnitOf_other h t⟩

theorem setShell_eq_withUnitOf (s : State) (u : UnitId) (sh : Shell) : s.setShell u sh = withUnitOf s u (s.setShell u sh) := by
  cases u <;> rfl

/-- The steps left do not depend on `IEN`, which alone the host can write of a BUSY unit. -/
theorem stepsLeft_setShell_ie (s : State) (u : UnitId) (b : Bool) :
    stepsLeft u (s.setShell u { s.shell u with ie := b }) = stepsLeft u s := by
  cases u <;> rfl

/-- A host access to the registers and buffers of a unit leaves every run (44_host_commands.md R291, R295). -/
theorem leavesRun_setShell {s : State} {v : UnitId} {sh : Shell} (hc : HostChange (s.shell v) sh)
    (hb : (s.shell v).state = .busy → sh.state = .busy) (u : UnitId) : LeavesRun u s (s.setShell v sh) := by
  by_cases hv : v = u
  · subst hv
    refine ⟨setShell_sched .., setShell_tick .., setShell_hostQ s v sh ▸ List.Subset.refl _, fun hs => ?_, fun hs => ?_⟩
    · rw [shell_setShell_self]
      exact hb hs
    · obtain ⟨b, rfl⟩ := hc.busy (hb hs)
      exact stepsLeft_setShell_ie s v b
  · rw [setShell_eq_withUnitOf]
    exact leavesRun_withUnitOf hv _

/-- START replaces its unit and nothing else, and not a BUSY one (44_host_commands.md R292). -/
theorem exec_cmdStart_frame (s : State) (v : UnitId) :
    ∃ t, exec (.cmdStart v) s = .next t ∧ t = withUnitOf s v t ∧ ((s.shell v).state = .busy → t = s) := by
  have hidle {sh : Shell} (hb : sh.state = .busy) : sh.state ≠ .idle := by rw [hb]; decide
  cases v with
  | pfe => exact ⟨_, exec_startPfe s, rfl, fun hb => by rw [pfeStart_ignored (hidle hb)]⟩
  | lzd => exact ⟨_, exec_startLzd s, rfl, fun hb => by rw [lzdStart_ignored (hidle hb)]⟩
  | g4e => exact ⟨_, exec_startG4e s, rfl, fun hb => by rw [g4eStart_ignored (hidle hb)]⟩
  | rld => exact ⟨_, exec_startRld s, rfl, fun hb => by rw [rldStart_ignored (hidle hb)]⟩

theorem leavesRun_start {s t : State} {v : UnitId} (h : exec (.cmdStart v) s = .next t) {u : UnitId}
    (hb : (s.shell u).state = .busy) : LeavesRun u s t := by
  obtain ⟨t', ht', hframe, hsame⟩ := exec_cmdStart_frame s v
  obtain rfl := Host.Outcome.next.inj (ht'.symm.trans h)
  by_cases hv : v = u
  · rw [hsame (hv ▸ hb)]
    exact leavesRun_refl u s
  · rw [hframe]
    exact leavesRun_withUnitOf hv _

/-- No host access but a hardware reset ends a run (44_host_commands.md R296). -/
theorem hostAct_leavesRun {s t : State} {a : HostAction} (ha : a ≠ .hardReset) (h : hostAct a s = .next t) {u : UnitId}
    (hb : (s.shell u).state = .busy) : LeavesRun u s t := by
  generalize hr : Host.Outcome.next t = r at h
  have hturn := h ▸ hostAct_cases s a
  cases hturn with
  | start v => exact leavesRun_start hr.symm hb
  | clear v =>
    obtain rfl := Host.Outcome.next.inj hr
    exact leavesRun_setShell (hostChange_clear _) (fun hs => by rw [clear_of_busy hs, hs]) u
  | hardReset => exact absurd rfl ha
  | write a v sh hstate hchange hgood =>
    obtain rfl := Host.Outcome.next.inj hr
    exact leavesRun_setShell hchange hstate.trans u
  | read a b n =>
    obtain rfl := Host.Outcome.next.inj hr
    exact ⟨rfl, rfl, List.Subset.refl _, by cases u <;> exact id, fun _ => by cases u <;> rfl⟩

theorem hostStep_leavesRun {s t : State} (hq : HostAction.hardReset ∉ s.hostQ) (h : hostStep s = .next t) {u : UnitId}
    (hb : (s.shell u).state = .busy) : LeavesRun u s t := by
  cases hs : s.hostQ with
  | nil =>
    obtain rfl := Host.Outcome.next.inj ((hostStep_nil s hs).symm.trans h)
    exact leavesRun_refl u s
  | cons a q =>
    have ha : a ≠ .hardReset := fun he => hq (hs ▸ he ▸ List.mem_cons_self)
    have hshell : ({ s with hostQ := q } : State).shell u = s.shell u := by cases u <;> rfl
    have hleft : stepsLeft u ({ s with hostQ := q } : State) = stepsLeft u s := by cases u <;> rfl
    obtain ⟨h1, h2, h3, h4, h5⟩ :=
      hostAct_leavesRun ha ((hostStep_cons s a q hs).symm.trans h) (by rw [hshell]; exact hb)
    rw [hshell] at h4 h5
    exact ⟨h1, h2, hs ▸ List.subset_cons_of_subset a h3, h4, fun hbu => (h5 hbu).trans hleft⟩

/-! ### A unit in a run -/

/-- A unit in a run that no hardware reset is to end. -/
structure InRun (u : UnitId) (s : State) : Prop where
  good : s.Good
  busy : (s.shell u).state = .busy
  noReset : HostAction.hardReset ∉ s.hostQ

theorem inRun_takeTurn {u : UnitId} {s : State} (h : InRun u s) : InRun u s.takeTurn.2 where
  good := takeTurn_good h.good
  busy := by rw [takeTurn_shell]; exact h.busy
  noReset := by rw [takeTurn_hostQ]; exact h.noReset

theorem stepsLeft_takeTurn (u : UnitId) (s : State) : stepsLeft u s.takeTurn.2 = stepsLeft u s := by
  rw [takeTurn_frame]
  cases u <;> rfl

/-- A step that is another agent's leaves the run (R363). -/
theorem step_of_other {u : UnitId} {s : State} (h : InRun u s) (ha : s.takeTurn.1 ≠ .unit u) :
    ∃ t, step s = .next t ∧ InRun u t ∧ LeavesRun u s.takeTurn.2 t := by
  have h1 := inRun_takeTurn h
  obtain ⟨t, ht, hgood⟩ := stepKeepsGood s h.good
  have hleaves : LeavesRun u s.takeTurn.2 t := by
    rw [step_eq] at ht
    cases hagent : s.takeTurn.1 with
    | host =>
      rw [hagent] at ht
      exact hostStep_leavesRun h1.noReset ht h1.busy
    | unit v =>
      rw [hagent] at ht ha
      rw [unitStep_frame ht]
      exact leavesRun_withUnitOf (fun hv => ha (congrArg Agent.unit hv)) t
  exact ⟨t, ht, ⟨hgood, hleaves.busy h1.busy, fun hq => h1.noReset (hleaves.hostQ hq)⟩, hleaves⟩

/-- The unit's own step ends the run or leaves fewer steps (R362). -/
theorem step_of_own {u : UnitId} {s : State} (h : InRun u s) (ha : s.takeTurn.1 = .unit u) :
    ∃ t, step s = .next t ∧ (RunOver u t ∨ InRun u t ∧ stepsLeft u t < stepsLeft u s) := by
  have h1 := inRun_takeTurn h
  obtain ⟨t, ht, hgood, hprogress⟩ := unitStep_progress h1.good h1.busy
  obtain ⟨-, -, hq⟩ := withUnitOf_frame s.takeTurn.2 t u
  rw [← unitStep_frame ht] at hq
  rw [stepsLeft_takeTurn] at hprogress
  exact ⟨t, (step_unit s _ u (Prod.ext ha rfl)).trans ht,
    hprogress.imp_right fun ⟨hb, hless⟩ => ⟨⟨hgood, hb, hq ▸ h1.noReset⟩, hless⟩⟩

/-! ### The turns to come (log 6) -/

/-- The turns of `d` stretches from number `k` on. -/
def stretches (k : Nat) : Nat → List Agent
  | 0 => []
  | d + 1 => freeTurns k ++ [roundAgent k] ++ stretches (k + 1) d

/-- The turns granted, and those of the next `d` stretches. -/
def upcoming (d : Nat) (s : State) : List Agent := s.sched ++ stretches s.tick d

/-- A turn taken is the first of those to come, and the others still are. -/
theorem takeTurn_upcoming {d : Nat} {s : State} {a : Agent} {rest : List Agent} (h : upcoming d s = a :: rest) :
    s.takeTurn.1 = a ∧ ∃ e, upcoming e s.takeTurn.2 = rest := by
  unfold upcoming at h
  cases hs : s.sched with
  | cons b granted =>
    rw [hs, List.cons_append, List.cons.injEq] at h
    obtain ⟨rfl, rfl⟩ := h
    rw [takeTurn_cons s b granted hs]
    exact ⟨rfl, d, rfl⟩
  | nil =>
    cases d with
    | zero =>
      rw [hs] at h
      cases h
    | succ e =>
      obtain ⟨b, granted, hstretch, htake⟩ := takeTurn_nil s hs
      rw [hs, List.nil_append, stretches, hstretch, List.cons_append, List.cons.injEq] at h
      obtain ⟨rfl, rfl⟩ := h
      rw [htake]
      exact ⟨rfl, e, rfl⟩

/-- Each stretch ends with the next agent of the round. -/
theorem roundAgent_mem_stretches (i : Nat) : ∀ k, roundAgent (k + i) ∈ stretches k (i + 1) := by
  induction i with
  | zero => exact fun k => List.mem_append_left _ (List.mem_append_right _ List.mem_cons_self)
  | succ i ih =>
    intro k
    have hnext : k + (i + 1) = k + 1 + i := by omega
    rw [hnext]
    exact List.mem_append_right _ (ih (k + 1))

/-- The round comes to every unit. -/
theorem exists_roundAgent (u : UnitId) (k : Nat) : ∃ i, roundAgent (k + i) = .unit u := by
  have reach (j : Nat) (hj : j < 5) : ∃ i, (k + i) % 5 = j := ⟨j + (5 - k % 5), by omega⟩
  cases u with
  | pfe => obtain ⟨i, hi⟩ := reach 1 (by decide); exact ⟨i, by simp [roundAgent, hi]⟩
  | lzd => obtain ⟨i, hi⟩ := reach 2 (by decide); exact ⟨i, by simp [roundAgent, hi]⟩
  | g4e => obtain ⟨i, hi⟩ := reach 3 (by decide); exact ⟨i, by simp [roundAgent, hi]⟩
  | rld => obtain ⟨i, hi⟩ := reach 4 (by decide); exact ⟨i, by simp [roundAgent, hi]⟩

/-- Every unit has a turn to come (R363). -/
theorem exists_upcoming (u : UnitId) (s : State) : ∃ d, .unit u ∈ upcoming d s := by
  obtain ⟨i, hi⟩ := exists_roundAgent u s.tick
  exact ⟨i + 1, List.mem_append_right _ (hi ▸ roundAgent_mem_stretches i s.tick)⟩

/-! ### The unit's turn comes, and the run ends -/

/-- The run comes to the unit's turn with as many steps left, by induction on the turns before it. -/
theorem reaches_turn_of_mem {u : UnitId} : ∀ (turns : List Agent) {d : Nat} {s : State}, InRun u s → upcoming d s = turns →
    .unit u ∈ turns → ∃ t, Reaches s t ∧ InRun u t ∧ stepsLeft u t = stepsLeft u s ∧ t.takeTurn.1 = .unit u := by
  intro turns
  induction turns with
  | nil => exact fun _ _ hmem => absurd hmem List.not_mem_nil
  | cons a rest ih =>
    intro d s h hturns hmem
    obtain ⟨hagent, e, hrest⟩ := takeTurn_upcoming hturns
    by_cases ha : a = .unit u
    · exact ⟨s, reaches_refl s, h, rfl, hagent.trans ha⟩
    · obtain ⟨s1, hs1, h1, hleaves⟩ := step_of_other h (hagent ▸ ha)
      have hupcoming : upcoming e s1 = rest := by rw [upcoming, hleaves.sched, hleaves.tick]; exact hrest
      obtain ⟨t, ht, hin, hleft, hturn⟩ := ih h1 hupcoming (List.mem_of_ne_of_mem (Ne.symm ha) hmem)
      refine ⟨t, reaches_step hs1 ht, hin, ?_, hturn⟩
      calc stepsLeft u t = stepsLeft u s1 := hleft
        _ = stepsLeft u s.takeTurn.2 := hleaves.left (inRun_takeTurn h).busy
        _ = stepsLeft u s := stepsLeft_takeTurn u s

/-- A BUSY unit's next turn comes (R363). -/
theorem reaches_turn {u : UnitId} {s : State} (h : InRun u s) :
    ∃ t, Reaches s t ∧ InRun u t ∧ stepsLeft u t = stepsLeft u s ∧ t.takeTurn.1 = .unit u := by
  obtain ⟨d, hmem⟩ := exists_upcoming u s
  exact reaches_turn_of_mem _ h rfl hmem

/-- A run ends, by induction on a bound of the steps it has left. -/
theorem reaches_runOver {u : UnitId} : ∀ (n : Nat) {s : State}, InRun u s → stepsLeft u s ≤ n →
    ∃ t, Reaches s t ∧ RunOver u t := by
  intro n
  induction n with
  | zero => exact fun h hn => absurd hn (Nat.not_le.mpr (stepsLeft_pos h.good h.busy))
  | succ n ih =>
    intro s h hn
    obtain ⟨s1, hs1, h1, hleft, hturn⟩ := reaches_turn h
    obtain ⟨s2, hs2, hover | ⟨h2, hless⟩⟩ := step_of_own h1 hturn
    · exact ⟨s2, reaches_trans hs1 (reaches_step hs2 (reaches_refl s2)), hover⟩
    · obtain ⟨t, ht, hover⟩ := ih h2 (by omega)
      exact ⟨t, reaches_trans hs1 (reaches_step hs2 ht), hover⟩

/-- Settles O59: the unit's turn comes, each of its turns leaves fewer steps, and no other agent's turn changes their number. -/
theorem startedRunsEnd : Obligations.StartedRunsEnd := by
  unfold Obligations.StartedRunsEnd
  intro s u hgood hb hq
  have h : InRun u s := ⟨hgood, hb, hq⟩
  refine ⟨?turn, ?ends⟩
  case turn =>
    obtain ⟨t, ⟨n, hn⟩, ht, -, hturn⟩ := reaches_turn h
    exact ⟨n, t, hn, ht.busy, hturn⟩
  case ends =>
    obtain ⟨t, ⟨n, hn⟩, hover⟩ := reaches_runOver _ h le_rfl
    exact ⟨n, t, hn, hover⟩

end Sys2Proof.Proofs
end
